-- ==== Sys2Proof/Word.lean ====
section
/-!
DEFINITION. The word types of the Strelolif S24 (02_encoding.md R23, R25; 04_numbers.md R65) and nothing else:
bit-field and byte-order helpers stand in Decode.lean and under Machine/.
-/
namespace Sys2Proof

/-- One byte of a location (R228). -/
abbrev Byte := BitVec 8

/-- A 32-bit word: an instruction word, or one lane of a vector register (R23). -/
abbrev Word := BitVec 32

/-- A 64-bit word: a scalar register (R23), a virtual address, a time stamp as software reads it. -/
abbrev DWord := BitVec 64

/-- A lane mask: bit l stands for lane l (R26). -/
abbrev LaneMask := BitVec 32

/-- A 7-bit register field (R36): a vector register, or a scalar where the description says so. -/
abbrev Reg7 := BitVec 7

/-- A 6-bit scalar field: s0 to s63 (R23). -/
abbrev SReg := BitVec 6

/-- A 3-bit dependency-counter field (R34, R36). -/
abbrev DcField := BitVec 3

/-- A one-bit field of an instruction word. -/
abbrev Bit := BitVec 1

end Sys2Proof
end

