-- ==== Sys2Proof/Config.lean ====
section
/-!
DEFINITION. What the part fixes and the manual does not state: free values, as constants without a body (log 5, log 7,
log 9, log 10, log 13), and the figures that R10 and R15 fix.
-/
namespace Sys2Proof.Config

/-- A free value by the reading of the counter of free values (log 5). -/
opaque freeWord : Nat → Word

/-- A free 64-bit value (log 5). -/
opaque freeDWord : Nat → DWord

/-- A free truth value (log 5). -/
opaque freeBool : Nat → Bool

/-- The words of a mailbox frame after its header, by the frame's place and their own: the manual gives operands and data no layout
(log 12). -/
opaque frameWord : Nat → Nat → Word

/-- A free natural number (log 10). -/
opaque freeNat : Nat → Nat

/-- The special function unit off its special inputs: function code and input bits to result bits (R183, log 7). -/
opaque sfuBits : Nat → Word → Word

/-- The L1 line to evict among `n` valid ones, by the counter of free values (R429, log 9). -/
opaque l1Victim : Nat → Nat

/-- The cluster-cache slice, of 32, that holds a line of 256 bytes, by address space and line number (R15, log 9). -/
opaque cacheSlice : Nat → Nat → Nat

/-- The line to evict among `n` candidates of a cluster-cache slice, by the counter of free values (R429, log 9). -/
opaque cacheVictim : Nat → Nat

/-- Where in a stack the MP begins its search for a frame, by the counter of free values (R250, R422, log 10). -/
opaque frameChoice : Nat → Nat

/-- The attestation signature by the device key (R405, log 13). -/
opaque attestSign : List Byte → List Byte

/-- The Isayx firmware key, a public key that the ROM holds (R405). -/
opaque firmwareKey : List Byte

/-- The one-way delay of a link in nanoseconds, as its port measures it when the peer has been verified (R399, log 14). -/
opaque linkDelay : Nat → Nat

/-- A free 256-bit value of a random source (R97, log 13). -/
opaque randomKey : Nat → BitVec 256

/-- Stepping of the compute dies that the manual covers, A1: letter and number in ASCII (R9). -/
def computeStepping : List Byte := [0x41, 0x31]

/-- Stepping of the management die, A0 (R9). -/
def managementStepping : List Byte := [0x41, 0x30]

/-- The architecture level (R9). -/
def architectureLevel : Byte := 1

/-- Steppings of the four compute dies and of the management die, and the level, as an attestation and a device identity hold
them (R9, R402, R405): the manual names the parts, and their order and bytes are the model's choice (log 49). -/
def steppings : List Byte :=
  computeStepping ++ computeStepping ++ computeStepping ++ computeStepping ++ managementStepping ++ [architectureLevel]

/-- The device identity (R9, R402): the part number ISX-S24 in ASCII, the steppings and the level; the layout is the model's
choice (log 49). -/
def deviceIdentity : List Byte := [0x49, 0x53, 0x58, 0x2D, 0x53, 0x32, 0x34] ++ steppings

/-- The device identity public key, generated at manufacture (R405). -/
opaque deviceKey : List Byte

/-- Cores (R10). -/
def cores : Nat := 512

/-- Stacks and home slices (R10). -/
def memStacks : Nat := 24

/-- Bytes of a stack: 96 GiB (R14). -/
def stackBytes : Nat := 96 * 2 ^ 30

/-- Bytes of a core's scratchpad: 1,536 KiB (R15). -/
def scratchBytes : Nat := 1572864

/-- Lines of an L1: 64 KiB of 64 B (R15). -/
def l1Lines : Nat := 1024

/-- Lines of a cluster-cache slice: 1.5 MiB of 256 B (R15). -/
def sliceLines : Nat := 6144

end Sys2Proof.Config
end

