-- ==== Sys2Proof/Syntax.lean ====
section
/-!
DEFINITION. The syntax of the machine's steps: one constructor of Instr for each row of spec/opcode_table.json.
Rows 0 to 169 are the program instructions of map 0 (03_opcode_map.md R50 to R58); their fields are the fields of the
word formats of R36 and of the instruction chapters, reserved fields left out. The other rows are the device's own
steps and the commands of the memory processor (95_what_each_step_holds.md); their arguments name the object they
act on and carry the data that comes from outside the part.
-/
namespace Sys2Proof

/-- The F3 layout of R36: destination, first source, second source, and whether b names a scalar. -/
structure F3 where
  d : Reg7
  a : Reg7
  b : Reg7
  sb : Bit
  deriving DecidableEq, Repr

/-- The F3 layout of a unary instruction (R162): the a field must be zero and is left out. -/
structure U3 where
  d : Reg7
  b : Reg7
  sb : Bit
  deriving DecidableEq, Repr

/-- The F3 layout of a scalar twin (R51): sb must be 1 and is left out; the fields name scalars. -/
structure S3 where
  d : Reg7
  a : Reg7
  b : Reg7
  deriving DecidableEq, Repr

/-- The F3 layout of a unary scalar twin (R51, R162). -/
structure SU where
  d : Reg7
  b : Reg7
  deriving DecidableEq, Repr

/-- The FM word and its extension word (R36). -/
structure Fm where
  d : Reg7
  sbase : SReg
  vidx : Reg7
  scale : BitVec 2
  off : BitVec 20
  dc : DcField
  scope : BitVec 3
  pol : BitVec 2
  nx : Bit
  size : BitVec 3
  deriving DecidableEq, Repr

/-- The one-word layout of the chandler and hoop instructions (R348, R366) without SB. -/
structure Ch where
  d : SReg
  a : SReg
  dc : DcField
  deriving DecidableEq, Repr

/-- The same with SB (R348, R366, R206). -/
structure Ch3 where
  d : SReg
  a : SReg
  b : SReg
  dc : DcField
  deriving DecidableEq, Repr

/-- The word of a porter data command (R296): scalar operands and the counter. -/
structure Pw where
  sa : SReg
  sb : SReg
  sc : SReg
  dc : DcField
  deriving DecidableEq, Repr

/-- mdrn's word and extension word (R324). -/
structure MdrnF where
  acc : BitVec 3
  hd : BitVec 4
  ss : SReg
  dfmt : BitVec 4
  sat : Bit
  scl : Bit
  dc : DcField
  row0 : BitVec 8
  col0 : BitVec 8
  cr : Bit
  bk : BitVec 4
  deriving DecidableEq, Repr

/-- vhamm's word and extension word (R190), but for the width in the opcode. -/
structure HammF where
  sd : SReg
  a : Reg7
  sq : SReg
  rad : BitVec 8
  dc : DcField
  wd : Bit
  ve : Reg7
  deriving DecidableEq, Repr

/-- The backing locator of PG_MAP (R257). The manual gives its 16 bytes no layout, so it is typed (log 12). -/
inductive Locator where
  /-- Nothing named (BACK = 0 with ZERO). -/
  | none
  /-- A host buffer to copy from (BACK = 0). -/
  | hostBuffer (data : List Byte)
  /-- An existing page to mirror read-only (BACK = 0, R252). -/
  | mirror (asid va : Nat)
  /-- The slow-tier store (BACK = 1): its base, and the link port it is reached through. -/
  | slow (store : Nat) (port : Nat)
  /-- A peer package's export window (BACK = 2). -/
  | window (port window offset : Nat)
  deriving DecidableEq, Repr

/-- What a link request asks for (R392, R395). -/
inductive ReqKind where
  | read
  | write
  | atomic (op : BitVec 4)
  deriving DecidableEq, Repr

/-- The answer a peer gives to an outbound request (R398). -/
inductive Answer where
  | ok (data : List Byte)
  | refused
  deriving DecidableEq, Repr

/-- The sensor block of R408. Temperatures are in units of 0.125 °C. -/
structure Sensors where
  islandTemp : List Nat
  dieTemp : List Nat
  stackTemp : List Nat
  powerMw : Nat
  /-- Power of each island, from which R409 takes the highest. -/
  islandMw : List Nat
  coolIn : Nat
  coolOut : Nat
  deriving DecidableEq, Repr

/-- A unit that can fail in service (R404). -/
inductive UnitKind where
  | core
  | loom
  | stack
  | port
  deriving DecidableEq, Repr

/-- The steps of the machine: one constructor per row of spec/opcode_table.json, in the table's order. -/
inductive Instr where
  -- Class 0, vector integer (R165 to R170)
  | vadd (w : Bit) (f : F3)
  | vsub (w : Bit) (f : F3)
  | vmullo (w : Bit) (f : F3)
  | vmulhi (u : Bit) (f : F3)
  | vmad (w : Bit) (f : F3)
  | vmin (u : Bit) (f : F3)
  | vmax (u : Bit) (f : F3)
  | vabs (f : U3)
  | vneg (f : U3)
  | vand (f : F3)
  | vor (f : F3)
  | vxor (f : F3)
  | vnot (f : U3)
  | vshl (f : F3)
  | vshr (f : F3)
  | vsar (f : F3)
  | vrot (f : F3)
  | vpopc (f : U3)
  | vclz (f : U3)
  | vbfe (u : Bit) (f : F3)
  | vbfi (f : F3)
  | vcmp (c : BitVec 4) (f : F3)
  | vmovl (d : Reg7) (lit : Word)
  | vaddc (f : F3) (co ci : SReg)
  | vsubb (f : F3) (co ci : SReg)
  | vsel (f : F3) (sm : SReg)
  | vmov (w : Bit) (f : U3)
  -- Class 0, scalar (R171 to R173)
  | sadd (f : S3)
  | ssub (f : S3)
  | smullo (f : S3)
  | smulhiI64 (f : S3)
  | smulhiN64 (f : S3)
  | smad (f : S3)
  | smin (u : Bit) (f : S3)
  | smax (u : Bit) (f : S3)
  | sabs (f : SU)
  | sneg (f : SU)
  | sand (f : S3)
  | sor (f : S3)
  | sxor (f : S3)
  | snot (f : SU)
  | sshl (f : S3)
  | sshr (f : S3)
  | ssar (f : S3)
  | srot (f : S3)
  | spopc (f : SU)
  | sclz (f : SU)
  | sbfe (u : Bit) (f : S3)
  | sbfi (f : S3)
  | smov (f : SU)
  | ssel (f : S3) (sm : SReg)
  | scmp (c : BitVec 4) (f : S3)
  | saddc (f : S3) (co ci : SReg)
  | ssubb (f : S3) (co ci : SReg)
  | smovl (d : Reg7) (hi : Bit) (lit : Word)
  | saddl (d a : Reg7) (lit : Word)
  -- Class 1, floating point (R174 to R182)
  | vfadd (r : BitVec 2) (f : F3)
  | vfsub (r : BitVec 2) (f : F3)
  | vfmul (r : BitVec 2) (f : F3)
  | vfma (r : BitVec 2) (f : F3)
  | vfmal (r : BitVec 2) (f : F3) (lit : Word)
  | vfmin (f : F3)
  | vfmax (f : F3)
  | vfcmp (c : BitVec 3) (f : F3)
  | vfclass (f : U3)
  | vfrnd (r : BitVec 2) (f : U3)
  | vfcvt (sat : Bit) (r : BitVec 2) (d a : Reg7) (dt st : BitVec 4)
  | vfpack (bf : Bit) (f : F3)
  | vhadd2 (bf : Bit) (f : F3)
  | vhmul2 (bf : Bit) (f : F3)
  | vhfma2 (bf : Bit) (f : F3)
  -- Class 2, special function and cross-lane (R183 to R191)
  | vex2 (d a : Reg7) (dc : DcField)
  | vlg2 (d a : Reg7) (dc : DcField)
  | vrcp (d a : Reg7) (dc : DcField)
  | vrsq (d a : Reg7) (dc : DcField)
  | vsqrt (d a : Reg7) (dc : DcField)
  | vsint (d a : Reg7) (dc : DcField)
  | vcost (d a : Reg7) (dc : DcField)
  | vtanh (d a : Reg7) (dc : DcField)
  | vshflSel (f : F3) (dc : DcField) (seg : BitVec 3)
  | vshflRol (f : F3) (dc : DcField) (seg : BitVec 3)
  | vshflSlide (f : F3) (dc : DcField) (seg : BitVec 3)
  | vshflAx (f : F3) (dc : DcField) (seg : BitVec 3)
  | vvoteAny (d a : Reg7) (dc : DcField)
  | vvoteAll (d a : Reg7) (dc : DcField)
  | vvoteBallot (d a : Reg7) (dc : DcField)
  | vred (d a : Reg7) (op : BitVec 4) (x : Bit) (dc : DcField)
  | vscan (d a : Reg7) (op : BitVec 4) (x : Bit) (dc : DcField)
  | vhamm (w : Bit) (f : HammF)
  | vlanes (d : Reg7) (sm sc : SReg) (dc : DcField)
  -- Class 3, memory and atomics (R192 to R211)
  | ldg (m : Fm)
  | stg (m : Fm)
  | ldgu (m : Fm)
  | lds (m : Fm)
  | sts (m : Fm)
  | ldx (m : Fm)
  | stx (m : Fm)
  | ldrot (m : Fm)
  | stnt (m : Fm)
  | pref (m : Fm)
  | drain (dc : DcField)
  | cinv (a b : SReg) (all : Bit) (dc : DcField)
  | seal (f : Ch3)
  | unseal (f : Ch3)
  | atomg (k : BitVec 4) (m : Fm)
  | casg (m : Fm)
  | atoms (k : BitVec 4) (m : Fm)
  | cass (m : Fm)
  | atomx (k : BitVec 4) (m : Fm)
  | atomxCas (m : Fm)
  -- Class 4, loom (R309 to R333)
  | thdef (h : BitVec 4) (a : SReg)
  | acqb (acc : BitVec 3) (d : SReg) (dc : DcField)
  | relb (acc : BitVec 3)
  | mma (acc : BitVec 3) (ha hb : BitVec 4) (vf : Reg7) (dc : DcField)
  | mzero (acc : BitVec 3) (dc : DcField)
  | mdrn (f : MdrnF)
  | mstat (d : SReg) (dc : DcField)
  -- Class 5, porter (R291 to R308)
  | pcpy (w : Pw) (clip : SReg) (cr : Bit) (bk : BitVec 4)
  | pput (w : Pw) (clip : SReg) (cr : Bit) (bk : BitVec 4)
  | pgath (w : Pw) (si : SReg) (cr : Bit) (bk : BitVec 4) (wt : Bit) (pg : BitVec 6)
  | pscat (w : Pw) (si : SReg) (cr : Bit) (bk : BitVec 4)
  | pstream (w : Pw) (clip : SReg)
  | pstop (a : SReg) (dc : DcField)
  | pquant (w : Pw) (dfmt : BitVec 4) (cr : Bit) (bk : BitVec 4)
  | bseal (d : SReg) (dc : DcField)
  | bwait (a : SReg)
  | pcred (bk : BitVec 4) (a : SReg)
  -- Class 6, ordering, waiting, control (R212 to R224)
  | fence (ord : BitVec 2) (scope : BitVec 3)
  | dwait (k : DcField) (n : BitVec 6)
  | waitc (d a b : SReg)
  | timewait (a : SReg) (rel : Bit)
  | bru (c : BitVec 2) (s : SReg) (off : BitVec 16)
  | brd (s : SReg) (off : BitVec 16)
  | jmp (off : BitVec 16)
  | call (s : SReg) (off : BitVec 16)
  | ret (a : SReg)
  | exit
  | trap (code : BitVec 16)
  | passpri (a : SReg) (i : Bit) (g : BitVec 6)
  | yield
  | sleep (a : SReg) (i : Bit) (n : BitVec 15)
  | launch (d a : Reg7)
  | enq (d a : Reg7)
  | brk (code : BitVec 16)
  -- Class 6, barriers (R284 to R289)
  | binit (k : BitVec 4) (t b p : SReg)
  | barv (k : BitVec 4) (d : SReg) (dc : DcField)
  | barb (k : BitVec 4) (a : SReg)
  | bwaitp (k : BitVec 4) (p : SReg)
  | btest (k : BitVec 4) (d p : SReg) (sel : Bit) (dc : DcField)
  | bdrop (k : BitVec 4)
  -- Class 6, chandler (R348 to R350)
  | alloc (f : Ch)
  | free (f : Ch)
  | sknew (f : Ch)
  | skapp (f : Ch3) (pb : Bit)
  | sklook (f : Ch)
  | sktrim (f : Ch3)
  | sktrimDel (f : Ch)
  | skclone (f : Ch)
  | skset (f : Ch3)
  | skswap (f : Ch3)
  | refinc (f : Ch)
  | refdec (f : Ch)
  | poolq (f : Ch)
  -- Class 6, hoops (R366 to R371)
  | asdecl (f : Ch3)
  | asdrop (f : Ch)
  | asqry (f : Ch)
  | vstat (d : SReg) (dc : DcField)
  -- Class 7, system (R225, R226)
  | srd (d : Reg7) (reg : BitVec 8)
  | swr (a : Reg7) (reg : BitVec 8)
  | tmark (a : SReg) (code : BitVec 16)
  -- Context commands (R94)
  | ctxCreate (arenaMiB : Nat) (cred : List Byte)
  | ctxArm (asid : Nat) (record : BitVec 1024) (payload : List Byte)
  | ctxActivate (asid : Nat)
  | ctxSuspend (asid : Nat)
  | ctxResume (asid : Nat)
  | ctxDrain (asid : Nat) (cancel : Bool)
  | ctxQuery (asid : Nat)
  | dumpRead (asid slot seq : Nat) (sig : List Byte)
  | traceRead (asid core seq : Nat) (sig : List Byte)
  -- Queue commands (R108)
  | qCreate (asid prio c : Nat)
  | qActivate (asid qid : Nat)
  | qPause (asid qid : Nat)
  | qResume (asid qid : Nat)
  | qDrain (asid qid : Nat) (cancel : Bool)
  | qEnq (asid qid : Nat) (record : BitVec 1024)
  | qQuery (asid qid : Nat)
  -- Page commands (R257)
  | pgMap (asid va n : Nat) (attr : BitVec 64) (loc : Locator)
  | pgUnmap (asid va n : Nat)
  | pgProtect (asid va n : Nat) (r w x : Bool)
  | pgMigrate (asid va stack : Nat)
  | pgSethash (asid va n mset : Nat)
  | pgEvict (asid va n : Nat)
  | pgPromote (asid va n : Nat)
  | pgQuery (asid va : Nat)
  | shAttach (asid shared base size : Nat)
  | pchQuery (asid stack : Nat) (clear : Bool)
  | urXlate (asid va n : Nat) (w pull : Bool)
  | urReturn (asid va n : Nat)
  | poolDefine (asid : Nat) (defn : BitVec 256)
  -- Debug commands (R388)
  | dbgAttach (asid : Nat)
  | dbgDetach (asid : Nat)
  | dbgHold (asid ktag team : Nat) (mask : BitVec 64)
  | dbgRelease (asid ktag team : Nat) (mask : BitVec 64)
  | dbgSnap (asid ktag team : Nat)
  | dbgWrite (asid ktag team grp kind reg : Nat) (lanes : LaneMask) (value : DWord)
  -- Link commands (R392)
  | lkConfig (port timeout : Nat) (tmaster : Bool)
  | lkEnable (port : Nat)
  | lkDisable (port : Nat)
  | lkReset (port : Nat)
  | lkQuery (port : Nat)
  | trustAdd (hash : List Byte)
  | expCreate (asid base size : Nat) (r w a : Bool) (peer : List Byte)
  | expDestroy (asid window : Nat)
  -- Device commands (R403)
  | devInfo
  | devAttest (nonce : List Byte)
  | sensorRead
  | islandSet (island point : Nat)
  | pwrLimit (watts : Nat)
  | xferIn (asid va : Nat) (data : List Byte)
  | xferOut (asid va bytes : Nat)
  | fwUpdate (image : List Byte)
  -- Device steps: groups and splits
  | clauseFetch (g : Nat)
  | laneFaultTimeout (g : Nat)
  | spill (g slot : Nat)
  | binCloseTimeout (core bin : Nat)
  | fosterGroupForm (core bin : Nat)
  | stoodDownReturn (g : Nat)
  | timewaitExpiry (g slot : Nat)
  | sleepExpiry (g slot : Nat)
  | memcapUpdate (core : Nat)
  | registerStoreFill (g line : Nat)
  -- Device steps: results and accesses
  | sfuResult (op : Nat) (lanes : LaneMask)
  | crosslaneResult (op : Nat) (lanes : LaneMask)
  | memoryAccessComplete (op : Nat) (lanes : LaneMask)
  | atomicComplete (op : Nat) (lanes : LaneMask)
  | drainComplete (op : Nat)
  | sealComplete (op : Nat)
  | unsealComplete (op : Nat)
  | waitcRecheck (g slot : Nat)
  | homeSliceAccess (op unit : Nat)
  -- Device steps: page faults and page movement
  | sieveEmit (core : Nat)
  | riddleRecord (cluster : Nat)
  | riddleForward (cluster : Nat)
  | mpFaultAccept
  | promotionStart (asid va : Nat)
  | promotionDone (asid va : Nat)
  | promotionFail (asid va : Nat)
  | promotionTimeout (asid va : Nat)
  | coreWake (core asid va : Nat)
  | mpMigration (asid va stack : Nat)
  | migrationDone (asid va : Nat)
  | evictionDone (asid va : Nat)
  | heatDecay
  | pageCommandEffect (n : Nat)
  -- Device steps: distributors, teams, kernels
  | distributorSearch (cluster : Nat)
  | distributorPlace (cluster : Nat)
  | windowCopyOutDone (team : Nat)
  | barrierSpill (team reg : Nat)
  | bankEvict (loom team : Nat)
  | preemptionComplete (team : Nat)
  | swapOut (team : Nat)
  | teamRetire (team : Nat)
  | kernelComplete (kernel : Nat)
  | kernelFaulted (kernel : Nat)
  -- Device steps: versions and hoops
  | commitPoint (team : Nat)
  | hoopReleaseArrival (slice : Nat)
  | woundArrival (team : Nat)
  | versionDiscardDone (team : Nat)
  | teamRestart (team : Nat)
  | tokenGrant
  | asdeclDeclare (op : Nat)
  -- Device steps: porter
  | porterChecksDone (op : Nat)
  | porterCommandComplete (op : Nat)
  | porterStop (op : Nat)
  | pstreamTileStart (core stream : Nat)
  | asyncCreditTrap (g : Nat)
  -- Device steps: loom
  | loomPassStart (loom : Nat)
  | loomPassEnd (loom : Nat)
  | mzeroDone (op : Nat)
  | mdrnDone (op : Nat)
  | bankZeroingDone (loom bank : Nat)
  -- Device steps: chandler, dumps, ends
  | chandlerOpComplete (op : Nat)
  | dumpWrite (team : Nat)
  | contextQuiescence (asid : Nat)
  | queueDrainDone (asid qid : Nat)
  -- Host writes, reset, power and links
  | rspConsWrite (value : Word)
  | registerWrite (offset : Nat) (value : Word)
  | packageReset
  | hbmTrainingDone
  | islandStop (island : Nat)
  | islandResume (island : Nat)
  | sensorSample (block : Sensors)
  | powerLimitStep
  | setPointRestore (island : Nat)
  | unitFailure (kind : UnitKind) (id : Nat)
  | traceEpoch (core : Nat)
  | linkTrainingEnd (port lanes : Nat) (peerTmaster : Bool)
  | attestationAnswer (port : Nat) (key report sig : List Byte)
  | attestationTimeout (port : Nat)
  | laneLoss (port : Nat)
  | laneRetrain (port : Nat)
  | linkDrainDone (port : Nat)
  | inboundRequest (port tag window offset : Nat) (peer : List Byte) (kind : ReqKind) (data : List Byte)
  | remoteAnswer (port tag : Nat) (answer : Answer)
  | remoteTimeoutExpiry (port tag : Nat)
  | cancelArrival (port tag : Nat)
  | timeAlignSend (port : Nat)
  | timeAlignMessage (port gts delay : Nat)
  | remoteBudgetAccrued (op : Nat)
  | spillWriteDone (g slot : Nat)
  | windowCopyInDone (team : Nat)
  deriving DecidableEq, Repr

end Sys2Proof
end

