-- ==== Sys2Proof/WellFormed.lean ====
section
/-!
DEFINITION. Well-formed instructions: the field ranges that the fetch check of 02_encoding.md R31 enforces beyond the
reserved bits (R24, R25, R36, and the instruction chapters' own ranges). A value outside raises RESERVED_FIELD.
-/
namespace Sys2Proof

/-- A required counter field: 0 to 5 (R36). -/
def dcReq (dc : DcField) : Bool := dc.toNat ≤ 5

/-- An optional counter field: 0 to 5, or 7 for none (R36). -/
def dcOpt (dc : DcField) : Bool := dc.toNat ≤ 5 || dc.toNat == 7

/-- A 7-bit field that names a scalar is 0 to 63 (R36). -/
def sReg7 (r : Reg7) : Bool := r.toNat < 64

/-- A scalar pair is named by its even scalar (R348, R366). -/
def sEven (r : SReg) : Bool := r.toNat % 2 == 0

/-- The registers a vector operand of `n` 32-bit parts covers start at a multiple of `n` (R25). -/
def vAligned (r : Reg7) (n : Nat) : Bool := r.toNat % n == 0

/-- 32-bit parts of a lane's access of FM size code `z` (R193). -/
def sizeRegs (z : BitVec 3) : Nat := if z.toNat == 4 then 4 else if z.toNat == 3 then 2 else 1

/-- 32-bit parts of a type code of vfcvt (R179, R180). -/
def typeRegs (t : BitVec 4) : Nat := if t.toNat == 11 || t.toNat == 12 then 2 else 1

/-- 1 or 2 parts by a width bit. -/
def widthRegs (w : Bit) : Nat := if w.toNat == 1 then 2 else 1

/-- The vector registers an F3 instruction names, `n` parts each; b only when it is a vector. -/
def F3.regs (f : F3) (n : Nat) : List (Reg7 × Nat) :=
  (f.d, n) :: (f.a, n) :: (if f.sb.toNat == 1 then [] else [(f.b, n)])

/-- The same without d, where d names a scalar (R167). -/
def F3.srcRegs (f : F3) : List (Reg7 × Nat) := (f.a, 1) :: (if f.sb.toNat == 1 then [] else [(f.b, 1)])

/-- The vector registers a unary instruction names. -/
def U3.regs (f : U3) (n : Nat) : List (Reg7 × Nat) := (f.d, n) :: (if f.sb.toNat == 1 then [] else [(f.b, n)])

/-- With sb = 1, b names a scalar and must be 0 to 63 (R36). -/
def F3.bOk (f : F3) : Bool := f.sb.toNat == 0 || sReg7 f.b

/-- With sb = 1, b names a scalar and must be 0 to 63 (R36). -/
def U3.bOk (f : U3) : Bool := f.sb.toNat == 0 || sReg7 f.b

/-- The index register of an FM instruction. -/
def Fm.idxRegs (m : Fm) : List (Reg7 × Nat) := if m.nx.toNat == 1 then [] else [(m.vidx, 1)]

/-- The vector registers of an FM instruction with `n` data registers at d. -/
def Fm.regs (m : Fm) (n : Nat) : List (Reg7 × Nat) := (m.d, n) :: m.idxRegs

/-- The rules common to every FM word (R36): no index, no scale; scope and size in range. -/
def Fm.common (m : Fm) : Bool :=
  (m.nx.toNat == 0 || (m.vidx.toNat == 0 && m.scale.toNat == 0)) && m.scope.toNat ≤ 5 && m.size.toNat ≤ 6

/-- A non-atomic access: scope 0 (R195). -/
def Fm.access (m : Fm) : Bool := m.common && m.scope.toNat == 0

/-- A scratchpad access: pol 0 as well (R198). -/
def Fm.scratch (m : Fm) : Bool := m.access && m.pol.toNat == 0

/-- An atomic (R208): size 2 or 3. -/
def Fm.atomic (m : Fm) : Bool := m.common && (m.size.toNat == 2 || m.size.toNat == 3)

/-- A scratchpad atomic (R208): scope 0 to 3. -/
def Fm.atomicSp (m : Fm) : Bool := m.atomic && m.scope.toNat ≤ 3

/-- The sub-operation of an atomic (R208): 0 to 9, and .fadd at size 2 only. -/
def atomOk (k : BitVec 4) (m : Fm) : Bool := k.toNat ≤ 9 && (k.toNat != 9 || m.size.toNat == 2)

/-- Data registers of a compare-and-swap (R209): compare and swap values side by side. -/
def Fm.casRegs (m : Fm) : Nat := if m.size.toNat == 3 then 4 else 2

/-- Vector operands and the parts each covers: what R24 and R25 check. -/
def Instr.vecOperands : Instr → List (Reg7 × Nat)
  | .vadd w f | .vsub w f | .vmullo w f | .vmad w f => f.regs (widthRegs w)
  | .vmulhi _ f | .vmin _ f | .vmax _ f | .vand f | .vor f | .vxor f | .vshl f | .vshr f | .vsar f | .vrot f
  | .vbfe _ f | .vbfi f | .vaddc f _ _ | .vsubb f _ _ | .vsel f _ => f.regs 1
  | .vabs f | .vneg f | .vnot f | .vpopc f | .vclz f | .vfclass f | .vfrnd _ f => f.regs 1
  | .vmov w f => f.regs (widthRegs w)
  | .vcmp _ f | .vfcmp _ f => f.srcRegs
  | .vmovl d _ => [(d, 1)]
  | .vfadd _ f | .vfsub _ f | .vfmul _ f | .vfma _ f | .vfmal _ f _ | .vfmin f | .vfmax f | .vfpack _ f
  | .vhadd2 _ f | .vhmul2 _ f | .vhfma2 _ f => f.regs 1
  | .vfcvt _ _ d a dt st => [(d, typeRegs dt), (a, typeRegs st)]
  | .vex2 d a _ | .vlg2 d a _ | .vrcp d a _ | .vrsq d a _ | .vsqrt d a _ | .vsint d a _ | .vcost d a _
  | .vtanh d a _ | .vscan d a _ _ _ => [(d, 1), (a, 1)]
  | .vshflSel f _ _ => f.regs 1
  | .vshflRol f _ _ | .vshflSlide f _ _ | .vshflAx f _ _ => [(f.d, 1), (f.a, 1)]
  | .vvoteAny _ a _ | .vvoteAll _ a _ | .vvoteBallot _ a _ => [(a, 1)]
  | .vred d a _ x _ => if x.toNat == 1 then [(d, 1), (a, 1)] else [(a, 1)]
  | .vhamm w f => (f.a, widthRegs w) :: (if f.wd.toNat == 1 then [(f.ve, widthRegs w)] else [])
  | .vlanes d _ _ _ => [(d, 1)]
  | .ldg m | .stg m | .lds m | .sts m | .ldx m | .stx m | .ldrot m | .stnt m => m.regs (sizeRegs m.size)
  | .ldgu _ => []
  | .pref m => m.idxRegs
  | .atomg _ m | .atoms _ m | .atomx _ m => m.regs (sizeRegs m.size)
  | .casg m | .cass m | .atomxCas m => m.regs m.casRegs
  | .mma _ _ _ vf _ => [(vf, 1)]
  | .launch d a | .enq d a => [(d, 1), (a, 1)]
  | .srd d reg => if reg.toNat ≤ 1 then [(d, 1)] else []
  | _ => []

/-- The fields of the instruction that do not name vector registers are inside their ranges. A passpri or sleep with I = 1 may hold
any SA, since R217 asks for no zero there (log 56). -/
def Instr.fieldsOk : Instr → Bool
  | .vadd _ f | .vsub _ f | .vmullo _ f | .vmad _ f | .vmulhi _ f | .vmin _ f | .vmax _ f | .vand f | .vor f
  | .vxor f | .vshl f | .vshr f | .vsar f | .vrot f | .vbfe _ f | .vbfi f | .vaddc f _ _ | .vsubb f _ _
  | .vsel f _ | .vfadd _ f | .vfsub _ f | .vfmul _ f | .vfma _ f | .vfmal _ f _ | .vfmin f | .vfmax f
  | .vfpack _ f | .vhadd2 _ f | .vhmul2 _ f | .vhfma2 _ f => f.bOk
  | .vabs f | .vneg f | .vnot f | .vpopc f | .vclz f | .vfclass f | .vfrnd _ f | .vmov _ f => f.bOk
  | .vcmp c f => f.bOk && sReg7 f.d && c.toNat ≤ 9
  | .vfcmp _ f => f.bOk && sReg7 f.d
  | .sadd f | .ssub f | .smullo f | .smulhiI64 f | .smulhiN64 f | .smad f | .smin _ f | .smax _ f | .sand f
  | .sor f | .sxor f | .sshl f | .sshr f | .ssar f | .srot f | .sbfe _ f | .sbfi f | .ssel f _ | .saddc f _ _
  | .ssubb f _ _ => sReg7 f.d && sReg7 f.a && sReg7 f.b
  | .scmp c f => sReg7 f.d && sReg7 f.a && sReg7 f.b && c.toNat ≤ 9
  | .sabs f | .sneg f | .snot f | .spopc f | .sclz f | .smov f => sReg7 f.d && sReg7 f.b
  | .smovl d _ _ => sReg7 d
  | .saddl d a _ => sReg7 d && sReg7 a
  | .vfcvt _ _ _ _ dt st => dt.toNat ≤ 12 && st.toNat ≤ 12
  | .vex2 _ _ dc | .vlg2 _ _ dc | .vrcp _ _ dc | .vrsq _ _ dc | .vsqrt _ _ dc | .vsint _ _ dc | .vcost _ _ dc
  | .vtanh _ _ dc | .vlanes _ _ _ dc => dcReq dc
  | .vshflSel f dc seg => f.bOk && dcReq dc && seg.toNat ≤ 5
  | .vshflRol f dc seg | .vshflSlide f dc seg => f.bOk && dcReq dc && seg.toNat ≤ 5
  | .vshflAx f dc seg => (if f.sb.toNat == 1 then sReg7 f.b else f.b.toNat < 32) && dcReq dc && seg.toNat ≤ 5
  | .vvoteAny d _ dc | .vvoteAll d _ dc | .vvoteBallot d _ dc => sReg7 d && dcReq dc
  | .vred d _ op x dc => op.toNat ≤ 10 && dcReq dc && (x.toNat == 1 || sReg7 d)
  | .vscan _ _ op _ dc => op.toNat ≤ 10 && dcReq dc
  | .vhamm w f => f.rad.toNat ≤ 32 * widthRegs w && dcReq f.dc && (f.wd.toNat == 1 || f.ve.toNat == 0)
  | .ldg m => m.access && dcReq m.dc
  | .stg m => m.access && dcOpt m.dc
  | .ldgu m => m.access && dcReq m.dc && sReg7 m.d && m.nx.toNat == 1 && m.size.toNat != 4
  | .lds m | .ldx m => m.scratch && dcReq m.dc
  | .sts m | .stx m => m.scratch && dcOpt m.dc
  | .ldrot m => m.access && dcReq m.dc && m.size.toNat == 3
  | .stnt m => m.access && m.dc.toNat == 7 && m.pol.toNat == 0
  | .pref m => m.access && dcOpt m.dc && m.d.toNat == 0 && m.size.toNat == 0 && m.pol.toNat ≤ 2
  | .drain dc => dcReq dc
  | .cinv a b all dc => dcReq dc && (all.toNat == 0 || (a.toNat == 0 && b.toNat == 0))
  | .seal f | .unseal f => dcReq f.dc
  | .atomg k m => m.atomic && atomOk k m && dcOpt m.dc
  | .casg m => m.atomic && dcReq m.dc
  | .atoms k m | .atomx k m => m.atomicSp && atomOk k m && dcOpt m.dc
  | .cass m | .atomxCas m => m.atomicSp && dcReq m.dc
  | .acqb _ _ dc | .mma _ _ _ _ dc | .mstat _ dc => dcReq dc
  | .mzero _ dc => dcOpt dc
  | .mdrn f =>
    f.dfmt.toNat ≤ 4 && (f.scl.toNat == 1 || f.ss.toNat == 0) && dcOpt f.dc && (f.dc.toNat != 7 || f.cr.toNat == 1)
      && (f.cr.toNat == 1 || f.bk.toNat == 0)
  | .pcpy w _ cr bk | .pput w _ cr bk | .pscat w _ cr bk => dcReq w.dc && (cr.toNat == 1 || bk.toNat == 0)
  | .pgath w _ cr bk _ _ => dcReq w.dc && (cr.toNat == 1 || bk.toNat == 0)
  | .pquant w dfmt cr bk => dcReq w.dc && dfmt.toNat ≤ 4 && (cr.toNat == 1 || bk.toNat == 0)
  | .pstream w _ => dcReq w.dc
  | .pstop _ dc | .bseal _ dc => dcReq dc
  | .fence ord scope => ord.toNat != 0 && scope.toNat ≤ 5
  | .dwait k _ => dcReq k
  | .passpri _ i g => i.toNat == 1 || g.toNat == 0
  | .sleep _ i n => i.toNat == 1 || n.toNat == 0
  | .barv _ d dc => dcOpt dc && (dc.toNat != 7 || d.toNat == 0)
  | .btest _ _ p sel dc => dcReq dc && (sel.toNat == 0 || p.toNat == 0)
  | .alloc f | .free f | .sknew f | .sktrimDel f | .skclone f | .refinc f | .refdec f | .poolq f => dcReq f.dc
  | .skapp f _ | .sktrim f => dcReq f.dc
  | .sklook f => dcReq f.dc && sEven f.d && sEven f.a
  | .skset f => dcReq f.dc && sEven f.b
  | .skswap f => dcReq f.dc && sEven f.a && sEven f.b
  | .asdecl f => dcReq f.dc
  | .asdrop f => dcReq f.dc
  | .asqry f => dcReq f.dc && sEven f.d
  | .vstat _ dc => dcReq dc
  | .srd d reg => reg.toNat ≤ 1 || ((reg.toNat ≤ 0x0F || (0x20 ≤ reg.toNat && reg.toNat ≤ 0x24)) && sReg7 d)
  | .swr a reg => reg.toNat == 0x0F && sReg7 a
  | _ => true

/-- Every vector operand starts at a multiple of its size (R25). -/
def Instr.aligned (i : Instr) : Bool := i.vecOperands.all fun (r, n) => vAligned r n

/-- Well-formed whatever the role: fields in range, pairs and quadruples aligned. -/
def Instr.wf (i : Instr) : Bool := i.fieldsOk && i.aligned

/-- Every vector register named lies within a budget of `g` granules of 8 registers (R24). -/
def Instr.fitsBudget (g : Nat) (i : Instr) : Bool := i.vecOperands.all fun (r, n) => r.toNat + n ≤ 8 * g

end Sys2Proof
end

