-- ==== Sys2Proof/Decode.lean ====
section
/-!
DEFINITION. The decoder: from 32-bit words (and from bytes, little-endian) to an instruction, by the opcode map of
03_opcode_map.md (R47 to R58) and the word formats of R36 and the instruction chapters. It is total and refuses by
name. After it, the encoder, written from the same tables.
-/
namespace Sys2Proof

/-- Why a word is refused. -/
inductive DecodeError where
  /-- An opcode the context's map marks "none" (R48). -/
  | illegalOpcode
  /-- A non-zero reserved field (R4, R31). -/
  | reservedField
  /-- A literal or extension word is missing. -/
  | truncated
  deriving DecidableEq, Repr

/-- One row of map 0: the opcodes `lo` to `hi`, the value bit 0 must have for the row to be chosen, the reserved bits
of the word (below bit 22), the bits that must be 1, and, for a row with an extension or literal word, its reserved
bits. -/
structure OpRow where
  lo : Nat
  hi : Nat
  bit0 : Option Bool
  zero : Word
  one : Word
  ext : Option Word
  make : Word → Word → Instr

/-- Class 0: integer (R50, R51). -/
def rows0 : List OpRow := [
  ⟨0x000, 0x001, none, 0x00000000, 0x00000000, none, fun w _ => .vadd (w.extractLsb' 22 1) ⟨w.extractLsb' 15 7, w.extractLsb' 8 7, w.extractLsb' 1 7, w.extractLsb' 0 1⟩⟩,
  ⟨0x002, 0x003, none, 0x00000000, 0x00000000, none, fun w _ => .vsub (w.extractLsb' 22 1) ⟨w.extractLsb' 15 7, w.extractLsb' 8 7, w.extractLsb' 1 7, w.extractLsb' 0 1⟩⟩,
  ⟨0x004, 0x005, none, 0x00000000, 0x00000000, none, fun w _ => .vmullo (w.extractLsb' 22 1) ⟨w.extractLsb' 15 7, w.extractLsb' 8 7, w.extractLsb' 1 7, w.extractLsb' 0 1⟩⟩,
  ⟨0x006, 0x007, none, 0x00000000, 0x00000000, none, fun w _ => .vmulhi (w.extractLsb' 22 1) ⟨w.extractLsb' 15 7, w.extractLsb' 8 7, w.extractLsb' 1 7, w.extractLsb' 0 1⟩⟩,
  ⟨0x008, 0x009, none, 0x00000000, 0x00000000, none, fun w _ => .vmad (w.extractLsb' 22 1) ⟨w.extractLsb' 15 7, w.extractLsb' 8 7, w.extractLsb' 1 7, w.extractLsb' 0 1⟩⟩,
  ⟨0x00A, 0x00B, none, 0x00000000, 0x00000000, none, fun w _ => .vmin (w.extractLsb' 22 1) ⟨w.extractLsb' 15 7, w.extractLsb' 8 7, w.extractLsb' 1 7, w.extractLsb' 0 1⟩⟩,
  ⟨0x00C, 0x00D, none, 0x00000000, 0x00000000, none, fun w _ => .vmax (w.extractLsb' 22 1) ⟨w.extractLsb' 15 7, w.extractLsb' 8 7, w.extractLsb' 1 7, w.extractLsb' 0 1⟩⟩,
  ⟨0x00E, 0x00E, none, 0x00007F00, 0x00000000, none, fun w _ => .vabs ⟨w.extractLsb' 15 7, w.extractLsb' 1 7, w.extractLsb' 0 1⟩⟩,
  ⟨0x00F, 0x00F, none, 0x00007F00, 0x00000000, none, fun w _ => .vneg ⟨w.extractLsb' 15 7, w.extractLsb' 1 7, w.extractLsb' 0 1⟩⟩,
  ⟨0x010, 0x010, none, 0x00000000, 0x00000000, none, fun w _ => .vand ⟨w.extractLsb' 15 7, w.extractLsb' 8 7, w.extractLsb' 1 7, w.extractLsb' 0 1⟩⟩,
  ⟨0x011, 0x011, none, 0x00000000, 0x00000000, none, fun w _ => .vor ⟨w.extractLsb' 15 7, w.extractLsb' 8 7, w.extractLsb' 1 7, w.extractLsb' 0 1⟩⟩,
  ⟨0x012, 0x012, none, 0x00000000, 0x00000000, none, fun w _ => .vxor ⟨w.extractLsb' 15 7, w.extractLsb' 8 7, w.extractLsb' 1 7, w.extractLsb' 0 1⟩⟩,
  ⟨0x013, 0x013, none, 0x00007F00, 0x00000000, none, fun w _ => .vnot ⟨w.extractLsb' 15 7, w.extractLsb' 1 7, w.extractLsb' 0 1⟩⟩,
  ⟨0x014, 0x014, none, 0x00000000, 0x00000000, none, fun w _ => .vshl ⟨w.extractLsb' 15 7, w.extractLsb' 8 7, w.extractLsb' 1 7, w.extractLsb' 0 1⟩⟩,
  ⟨0x015, 0x015, none, 0x00000000, 0x00000000, none, fun w _ => .vshr ⟨w.extractLsb' 15 7, w.extractLsb' 8 7, w.extractLsb' 1 7, w.extractLsb' 0 1⟩⟩,
  ⟨0x016, 0x016, none, 0x00000000, 0x00000000, none, fun w _ => .vsar ⟨w.extractLsb' 15 7, w.extractLsb' 8 7, w.extractLsb' 1 7, w.extractLsb' 0 1⟩⟩,
  ⟨0x017, 0x017, none, 0x00000000, 0x00000000, none, fun w _ => .vrot ⟨w.extractLsb' 15 7, w.extractLsb' 8 7, w.extractLsb' 1 7, w.extractLsb' 0 1⟩⟩,
  ⟨0x018, 0x018, none, 0x00007F00, 0x00000000, none, fun w _ => .vpopc ⟨w.extractLsb' 15 7, w.extractLsb' 1 7, w.extractLsb' 0 1⟩⟩,
  ⟨0x019, 0x019, none, 0x00007F00, 0x00000000, none, fun w _ => .vclz ⟨w.extractLsb' 15 7, w.extractLsb' 1 7, w.extractLsb' 0 1⟩⟩,
  ⟨0x01A, 0x01B, none, 0x00000000, 0x00000000, none, fun w _ => .vbfe (w.extractLsb' 22 1) ⟨w.extractLsb' 15 7, w.extractLsb' 8 7, w.extractLsb' 1 7, w.extractLsb' 0 1⟩⟩,
  ⟨0x01C, 0x01C, none, 0x00000000, 0x00000000, none, fun w _ => .vbfi ⟨w.extractLsb' 15 7, w.extractLsb' 8 7, w.extractLsb' 1 7, w.extractLsb' 0 1⟩⟩,
  ⟨0x020, 0x029, none, 0x00000000, 0x00000000, none, fun w _ => .vcmp (w.extractLsb' 22 4) ⟨w.extractLsb' 15 7, w.extractLsb' 8 7, w.extractLsb' 1 7, w.extractLsb' 0 1⟩⟩,
  ⟨0x02A, 0x02A, none, 0x00007FFF, 0x00000000, some 0x00000000, fun w x => .vmovl (w.extractLsb' 15 7) (x.extractLsb' 0 32)⟩,
  ⟨0x02B, 0x02B, none, 0x00000000, 0x00000000, some 0x000FFFFF, fun w x => .vaddc ⟨w.extractLsb' 15 7, w.extractLsb' 8 7, w.extractLsb' 1 7, w.extractLsb' 0 1⟩ (x.extractLsb' 26 6) (x.extractLsb' 20 6)⟩,
  ⟨0x02C, 0x02C, none, 0x00000000, 0x00000000, some 0x000FFFFF, fun w x => .vsubb ⟨w.extractLsb' 15 7, w.extractLsb' 8 7, w.extractLsb' 1 7, w.extractLsb' 0 1⟩ (x.extractLsb' 26 6) (x.extractLsb' 20 6)⟩,
  ⟨0x02D, 0x02D, none, 0x00000000, 0x00000000, some 0x03FFFFFF, fun w x => .vsel ⟨w.extractLsb' 15 7, w.extractLsb' 8 7, w.extractLsb' 1 7, w.extractLsb' 0 1⟩ (x.extractLsb' 26 6)⟩,
  ⟨0x02E, 0x02F, none, 0x00007F00, 0x00000000, none, fun w _ => .vmov (w.extractLsb' 22 1) ⟨w.extractLsb' 15 7, w.extractLsb' 1 7, w.extractLsb' 0 1⟩⟩,
  ⟨0x040, 0x040, none, 0x00000000, 0x00000001, none, fun w _ => .sadd ⟨w.extractLsb' 15 7, w.extractLsb' 8 7, w.extractLsb' 1 7⟩⟩,
  ⟨0x041, 0x041, none, 0x00000000, 0x00000001, none, fun w _ => .ssub ⟨w.extractLsb' 15 7, w.extractLsb' 8 7, w.extractLsb' 1 7⟩⟩,
  ⟨0x042, 0x042, none, 0x00000000, 0x00000001, none, fun w _ => .smullo ⟨w.extractLsb' 15 7, w.extractLsb' 8 7, w.extractLsb' 1 7⟩⟩,
  ⟨0x043, 0x043, none, 0x00000000, 0x00000001, none, fun w _ => .smulhiI64 ⟨w.extractLsb' 15 7, w.extractLsb' 8 7, w.extractLsb' 1 7⟩⟩,
  ⟨0x044, 0x044, none, 0x00000000, 0x00000001, none, fun w _ => .smulhiN64 ⟨w.extractLsb' 15 7, w.extractLsb' 8 7, w.extractLsb' 1 7⟩⟩,
  ⟨0x045, 0x045, none, 0x00000000, 0x00000001, none, fun w _ => .smad ⟨w.extractLsb' 15 7, w.extractLsb' 8 7, w.extractLsb' 1 7⟩⟩,
  ⟨0x046, 0x047, none, 0x00000000, 0x00000001, none, fun w _ => .smin (w.extractLsb' 22 1) ⟨w.extractLsb' 15 7, w.extractLsb' 8 7, w.extractLsb' 1 7⟩⟩,
  ⟨0x048, 0x049, none, 0x00000000, 0x00000001, none, fun w _ => .smax (w.extractLsb' 22 1) ⟨w.extractLsb' 15 7, w.extractLsb' 8 7, w.extractLsb' 1 7⟩⟩,
  ⟨0x04A, 0x04A, none, 0x00007F00, 0x00000001, none, fun w _ => .sabs ⟨w.extractLsb' 15 7, w.extractLsb' 1 7⟩⟩,
  ⟨0x04B, 0x04B, none, 0x00007F00, 0x00000001, none, fun w _ => .sneg ⟨w.extractLsb' 15 7, w.extractLsb' 1 7⟩⟩,
  ⟨0x04C, 0x04C, none, 0x00000000, 0x00000001, none, fun w _ => .sand ⟨w.extractLsb' 15 7, w.extractLsb' 8 7, w.extractLsb' 1 7⟩⟩,
  ⟨0x04D, 0x04D, none, 0x00000000, 0x00000001, none, fun w _ => .sor ⟨w.extractLsb' 15 7, w.extractLsb' 8 7, w.extractLsb' 1 7⟩⟩,
  ⟨0x04E, 0x04E, none, 0x00000000, 0x00000001, none, fun w _ => .sxor ⟨w.extractLsb' 15 7, w.extractLsb' 8 7, w.extractLsb' 1 7⟩⟩,
  ⟨0x04F, 0x04F, none, 0x00007F00, 0x00000001, none, fun w _ => .snot ⟨w.extractLsb' 15 7, w.extractLsb' 1 7⟩⟩,
  ⟨0x050, 0x050, none, 0x00000000, 0x00000001, none, fun w _ => .sshl ⟨w.extractLsb' 15 7, w.extractLsb' 8 7, w.extractLsb' 1 7⟩⟩,
  ⟨0x051, 0x051, none, 0x00000000, 0x00000001, none, fun w _ => .sshr ⟨w.extractLsb' 15 7, w.extractLsb' 8 7, w.extractLsb' 1 7⟩⟩,
  ⟨0x052, 0x052, none, 0x00000000, 0x00000001, none, fun w _ => .ssar ⟨w.extractLsb' 15 7, w.extractLsb' 8 7, w.extractLsb' 1 7⟩⟩,
  ⟨0x053, 0x053, none, 0x00000000, 0x00000001, none, fun w _ => .srot ⟨w.extractLsb' 15 7, w.extractLsb' 8 7, w.extractLsb' 1 7⟩⟩,
  ⟨0x054, 0x054, none, 0x00007F00, 0x00000001, none, fun w _ => .spopc ⟨w.extractLsb' 15 7, w.extractLsb' 1 7⟩⟩,
  ⟨0x055, 0x055, none, 0x00007F00, 0x00000001, none, fun w _ => .sclz ⟨w.extractLsb' 15 7, w.extractLsb' 1 7⟩⟩,
  ⟨0x056, 0x057, none, 0x00000000, 0x00000001, none, fun w _ => .sbfe (w.extractLsb' 22 1) ⟨w.extractLsb' 15 7, w.extractLsb' 8 7, w.extractLsb' 1 7⟩⟩,
  ⟨0x058, 0x058, none, 0x00000000, 0x00000001, none, fun w _ => .sbfi ⟨w.extractLsb' 15 7, w.extractLsb' 8 7, w.extractLsb' 1 7⟩⟩,
  ⟨0x059, 0x059, none, 0x00007F00, 0x00000001, none, fun w _ => .smov ⟨w.extractLsb' 15 7, w.extractLsb' 1 7⟩⟩,
  ⟨0x05A, 0x05A, none, 0x00000000, 0x00000001, some 0x03FFFFFF, fun w x => .ssel ⟨w.extractLsb' 15 7, w.extractLsb' 8 7, w.extractLsb' 1 7⟩ (x.extractLsb' 26 6)⟩,
  ⟨0x060, 0x069, none, 0x00000000, 0x00000001, none, fun w _ => .scmp (w.extractLsb' 22 4) ⟨w.extractLsb' 15 7, w.extractLsb' 8 7, w.extractLsb' 1 7⟩⟩,
  ⟨0x06A, 0x06A, none, 0x00000000, 0x00000001, some 0x000FFFFF, fun w x => .saddc ⟨w.extractLsb' 15 7, w.extractLsb' 8 7, w.extractLsb' 1 7⟩ (x.extractLsb' 26 6) (x.extractLsb' 20 6)⟩,
  ⟨0x06B, 0x06B, none, 0x00000000, 0x00000001, some 0x000FFFFF, fun w x => .ssubb ⟨w.extractLsb' 15 7, w.extractLsb' 8 7, w.extractLsb' 1 7⟩ (x.extractLsb' 26 6) (x.extractLsb' 20 6)⟩,
  ⟨0x07E, 0x07E, none, 0x00007FFE, 0x00000000, some 0x00000000, fun w x => .smovl (w.extractLsb' 15 7) (w.extractLsb' 0 1) (x.extractLsb' 0 32)⟩,
  ⟨0x07F, 0x07F, none, 0x000000FF, 0x00000000, some 0x00000000, fun w x => .saddl (w.extractLsb' 15 7) (w.extractLsb' 8 7) (x.extractLsb' 0 32)⟩]

/-- Class 1: floating point (R52). -/
def rows1 : List OpRow := [
  ⟨0x080, 0x083, none, 0x00000000, 0x00000000, none, fun w _ => .vfadd (w.extractLsb' 22 2) ⟨w.extractLsb' 15 7, w.extractLsb' 8 7, w.extractLsb' 1 7, w.extractLsb' 0 1⟩⟩,
  ⟨0x084, 0x087, none, 0x00000000, 0x00000000, none, fun w _ => .vfsub (w.extractLsb' 22 2) ⟨w.extractLsb' 15 7, w.extractLsb' 8 7, w.extractLsb' 1 7, w.extractLsb' 0 1⟩⟩,
  ⟨0x088, 0x08B, none, 0x00000000, 0x00000000, none, fun w _ => .vfmul (w.extractLsb' 22 2) ⟨w.extractLsb' 15 7, w.extractLsb' 8 7, w.extractLsb' 1 7, w.extractLsb' 0 1⟩⟩,
  ⟨0x0C0, 0x0C3, none, 0x00000000, 0x00000000, none, fun w _ => .vfma (w.extractLsb' 22 2) ⟨w.extractLsb' 15 7, w.extractLsb' 8 7, w.extractLsb' 1 7, w.extractLsb' 0 1⟩⟩,
  ⟨0x0C4, 0x0C7, none, 0x00000000, 0x00000000, some 0x00000000, fun w x => .vfmal (w.extractLsb' 22 2) ⟨w.extractLsb' 15 7, w.extractLsb' 8 7, w.extractLsb' 1 7, w.extractLsb' 0 1⟩ (x.extractLsb' 0 32)⟩,
  ⟨0x08C, 0x08C, none, 0x00000000, 0x00000000, none, fun w _ => .vfmin ⟨w.extractLsb' 15 7, w.extractLsb' 8 7, w.extractLsb' 1 7, w.extractLsb' 0 1⟩⟩,
  ⟨0x08D, 0x08D, none, 0x00000000, 0x00000000, none, fun w _ => .vfmax ⟨w.extractLsb' 15 7, w.extractLsb' 8 7, w.extractLsb' 1 7, w.extractLsb' 0 1⟩⟩,
  ⟨0x090, 0x097, none, 0x00000000, 0x00000000, none, fun w _ => .vfcmp (w.extractLsb' 22 3) ⟨w.extractLsb' 15 7, w.extractLsb' 8 7, w.extractLsb' 1 7, w.extractLsb' 0 1⟩⟩,
  ⟨0x098, 0x098, none, 0x00007F00, 0x00000000, none, fun w _ => .vfclass ⟨w.extractLsb' 15 7, w.extractLsb' 1 7, w.extractLsb' 0 1⟩⟩,
  ⟨0x09C, 0x09F, none, 0x00007F00, 0x00000000, none, fun w _ => .vfrnd (w.extractLsb' 22 2) ⟨w.extractLsb' 15 7, w.extractLsb' 1 7, w.extractLsb' 0 1⟩⟩,
  ⟨0x0A0, 0x0A7, none, 0x00000000, 0x00000000, none, fun w _ => .vfcvt (w.extractLsb' 24 1) (w.extractLsb' 22 2) (w.extractLsb' 15 7) (w.extractLsb' 8 7) (w.extractLsb' 4 4) (w.extractLsb' 0 4)⟩,
  ⟨0x0A8, 0x0A9, none, 0x00000000, 0x00000000, none, fun w _ => .vfpack (w.extractLsb' 22 1) ⟨w.extractLsb' 15 7, w.extractLsb' 8 7, w.extractLsb' 1 7, w.extractLsb' 0 1⟩⟩,
  ⟨0x0B0, 0x0B1, none, 0x00000000, 0x00000000, none, fun w _ => .vhadd2 (w.extractLsb' 22 1) ⟨w.extractLsb' 15 7, w.extractLsb' 8 7, w.extractLsb' 1 7, w.extractLsb' 0 1⟩⟩,
  ⟨0x0B2, 0x0B3, none, 0x00000000, 0x00000000, none, fun w _ => .vhmul2 (w.extractLsb' 22 1) ⟨w.extractLsb' 15 7, w.extractLsb' 8 7, w.extractLsb' 1 7, w.extractLsb' 0 1⟩⟩,
  ⟨0x0B4, 0x0B5, none, 0x00000000, 0x00000000, none, fun w _ => .vhfma2 (w.extractLsb' 22 1) ⟨w.extractLsb' 15 7, w.extractLsb' 8 7, w.extractLsb' 1 7, w.extractLsb' 0 1⟩⟩]

/-- Class 2: special function and cross-lane (R53). -/
def rows2 : List OpRow := [
  ⟨0x100, 0x100, none, 0x0000001F, 0x00000000, none, fun w _ => .vex2 (w.extractLsb' 15 7) (w.extractLsb' 8 7) (w.extractLsb' 5 3)⟩,
  ⟨0x101, 0x101, none, 0x0000001F, 0x00000000, none, fun w _ => .vlg2 (w.extractLsb' 15 7) (w.extractLsb' 8 7) (w.extractLsb' 5 3)⟩,
  ⟨0x102, 0x102, none, 0x0000001F, 0x00000000, none, fun w _ => .vrcp (w.extractLsb' 15 7) (w.extractLsb' 8 7) (w.extractLsb' 5 3)⟩,
  ⟨0x103, 0x103, none, 0x0000001F, 0x00000000, none, fun w _ => .vrsq (w.extractLsb' 15 7) (w.extractLsb' 8 7) (w.extractLsb' 5 3)⟩,
  ⟨0x104, 0x104, none, 0x0000001F, 0x00000000, none, fun w _ => .vsqrt (w.extractLsb' 15 7) (w.extractLsb' 8 7) (w.extractLsb' 5 3)⟩,
  ⟨0x105, 0x105, none, 0x0000001F, 0x00000000, none, fun w _ => .vsint (w.extractLsb' 15 7) (w.extractLsb' 8 7) (w.extractLsb' 5 3)⟩,
  ⟨0x106, 0x106, none, 0x0000001F, 0x00000000, none, fun w _ => .vcost (w.extractLsb' 15 7) (w.extractLsb' 8 7) (w.extractLsb' 5 3)⟩,
  ⟨0x107, 0x107, none, 0x0000001F, 0x00000000, none, fun w _ => .vtanh (w.extractLsb' 15 7) (w.extractLsb' 8 7) (w.extractLsb' 5 3)⟩,
  ⟨0x110, 0x110, none, 0x00000000, 0x00000000, some 0xFFFFF1F8, fun w x => .vshflSel ⟨w.extractLsb' 15 7, w.extractLsb' 8 7, w.extractLsb' 1 7, w.extractLsb' 0 1⟩ (x.extractLsb' 9 3) (x.extractLsb' 0 3)⟩,
  ⟨0x111, 0x111, none, 0x00000000, 0x00000000, some 0xFFFFF1F8, fun w x => .vshflRol ⟨w.extractLsb' 15 7, w.extractLsb' 8 7, w.extractLsb' 1 7, w.extractLsb' 0 1⟩ (x.extractLsb' 9 3) (x.extractLsb' 0 3)⟩,
  ⟨0x112, 0x112, none, 0x00000000, 0x00000000, some 0xFFFFF1F8, fun w x => .vshflSlide ⟨w.extractLsb' 15 7, w.extractLsb' 8 7, w.extractLsb' 1 7, w.extractLsb' 0 1⟩ (x.extractLsb' 9 3) (x.extractLsb' 0 3)⟩,
  ⟨0x113, 0x113, none, 0x00000000, 0x00000000, some 0xFFFFF1F8, fun w x => .vshflAx ⟨w.extractLsb' 15 7, w.extractLsb' 8 7, w.extractLsb' 1 7, w.extractLsb' 0 1⟩ (x.extractLsb' 9 3) (x.extractLsb' 0 3)⟩,
  ⟨0x118, 0x118, none, 0x0000001F, 0x00000000, none, fun w _ => .vvoteAny (w.extractLsb' 15 7) (w.extractLsb' 8 7) (w.extractLsb' 5 3)⟩,
  ⟨0x119, 0x119, none, 0x0000001F, 0x00000000, none, fun w _ => .vvoteAll (w.extractLsb' 15 7) (w.extractLsb' 8 7) (w.extractLsb' 5 3)⟩,
  ⟨0x11A, 0x11A, none, 0x0000001F, 0x00000000, none, fun w _ => .vvoteBallot (w.extractLsb' 15 7) (w.extractLsb' 8 7) (w.extractLsb' 5 3)⟩,
  ⟨0x120, 0x120, none, 0x00000000, 0x00000000, none, fun w _ => .vred (w.extractLsb' 15 7) (w.extractLsb' 8 7) (w.extractLsb' 4 4) (w.extractLsb' 3 1) (w.extractLsb' 0 3)⟩,
  ⟨0x121, 0x121, none, 0x00000000, 0x00000000, none, fun w _ => .vscan (w.extractLsb' 15 7) (w.extractLsb' 8 7) (w.extractLsb' 4 4) (w.extractLsb' 3 1) (w.extractLsb' 0 3)⟩,
  ⟨0x128, 0x129, none, 0x00000007, 0x00000000, some 0xFF00F001, fun w x => .vhamm (w.extractLsb' 22 1) ⟨w.extractLsb' 16 6, w.extractLsb' 9 7, w.extractLsb' 3 6, x.extractLsb' 16 8, x.extractLsb' 9 3, x.extractLsb' 8 1, x.extractLsb' 1 7⟩⟩,
  ⟨0x130, 0x130, none, 0x00000000, 0x00000000, none, fun w _ => .vlanes (w.extractLsb' 15 7) (w.extractLsb' 9 6) (w.extractLsb' 3 6) (w.extractLsb' 0 3)⟩]

/-- Class 3: memory and atomics (R54). -/
def rows3 : List OpRow := [
  ⟨0x180, 0x180, none, 0x00000000, 0x00000000, some 0x00000000, fun w x => .ldg ⟨w.extractLsb' 15 7, w.extractLsb' 9 6, w.extractLsb' 2 7, w.extractLsb' 0 2, x.extractLsb' 12 20, x.extractLsb' 9 3, x.extractLsb' 6 3, x.extractLsb' 4 2, x.extractLsb' 3 1, x.extractLsb' 0 3⟩⟩,
  ⟨0x181, 0x181, none, 0x00000000, 0x00000000, some 0x00000000, fun w x => .stg ⟨w.extractLsb' 15 7, w.extractLsb' 9 6, w.extractLsb' 2 7, w.extractLsb' 0 2, x.extractLsb' 12 20, x.extractLsb' 9 3, x.extractLsb' 6 3, x.extractLsb' 4 2, x.extractLsb' 3 1, x.extractLsb' 0 3⟩⟩,
  ⟨0x182, 0x182, none, 0x00000000, 0x00000000, some 0x00000000, fun w x => .ldgu ⟨w.extractLsb' 15 7, w.extractLsb' 9 6, w.extractLsb' 2 7, w.extractLsb' 0 2, x.extractLsb' 12 20, x.extractLsb' 9 3, x.extractLsb' 6 3, x.extractLsb' 4 2, x.extractLsb' 3 1, x.extractLsb' 0 3⟩⟩,
  ⟨0x183, 0x183, none, 0x00000000, 0x00000000, some 0x00000000, fun w x => .lds ⟨w.extractLsb' 15 7, w.extractLsb' 9 6, w.extractLsb' 2 7, w.extractLsb' 0 2, x.extractLsb' 12 20, x.extractLsb' 9 3, x.extractLsb' 6 3, x.extractLsb' 4 2, x.extractLsb' 3 1, x.extractLsb' 0 3⟩⟩,
  ⟨0x184, 0x184, none, 0x00000000, 0x00000000, some 0x00000000, fun w x => .sts ⟨w.extractLsb' 15 7, w.extractLsb' 9 6, w.extractLsb' 2 7, w.extractLsb' 0 2, x.extractLsb' 12 20, x.extractLsb' 9 3, x.extractLsb' 6 3, x.extractLsb' 4 2, x.extractLsb' 3 1, x.extractLsb' 0 3⟩⟩,
  ⟨0x185, 0x185, none, 0x00000000, 0x00000000, some 0x00000000, fun w x => .ldx ⟨w.extractLsb' 15 7, w.extractLsb' 9 6, w.extractLsb' 2 7, w.extractLsb' 0 2, x.extractLsb' 12 20, x.extractLsb' 9 3, x.extractLsb' 6 3, x.extractLsb' 4 2, x.extractLsb' 3 1, x.extractLsb' 0 3⟩⟩,
  ⟨0x186, 0x186, none, 0x00000000, 0x00000000, some 0x00000000, fun w x => .stx ⟨w.extractLsb' 15 7, w.extractLsb' 9 6, w.extractLsb' 2 7, w.extractLsb' 0 2, x.extractLsb' 12 20, x.extractLsb' 9 3, x.extractLsb' 6 3, x.extractLsb' 4 2, x.extractLsb' 3 1, x.extractLsb' 0 3⟩⟩,
  ⟨0x187, 0x187, none, 0x00000000, 0x00000000, some 0x00000000, fun w x => .ldrot ⟨w.extractLsb' 15 7, w.extractLsb' 9 6, w.extractLsb' 2 7, w.extractLsb' 0 2, x.extractLsb' 12 20, x.extractLsb' 9 3, x.extractLsb' 6 3, x.extractLsb' 4 2, x.extractLsb' 3 1, x.extractLsb' 0 3⟩⟩,
  ⟨0x188, 0x188, none, 0x00000000, 0x00000000, some 0x00000000, fun w x => .stnt ⟨w.extractLsb' 15 7, w.extractLsb' 9 6, w.extractLsb' 2 7, w.extractLsb' 0 2, x.extractLsb' 12 20, x.extractLsb' 9 3, x.extractLsb' 6 3, x.extractLsb' 4 2, x.extractLsb' 3 1, x.extractLsb' 0 3⟩⟩,
  ⟨0x189, 0x189, none, 0x00000000, 0x00000000, some 0x00000000, fun w x => .pref ⟨w.extractLsb' 15 7, w.extractLsb' 9 6, w.extractLsb' 2 7, w.extractLsb' 0 2, x.extractLsb' 12 20, x.extractLsb' 9 3, x.extractLsb' 6 3, x.extractLsb' 4 2, x.extractLsb' 3 1, x.extractLsb' 0 3⟩⟩,
  ⟨0x18A, 0x18A, none, 0x003FFE3F, 0x00000000, none, fun w _ => .drain (w.extractLsb' 6 3)⟩,
  ⟨0x18B, 0x18B, none, 0x0000003F, 0x00000000, none, fun w _ => .cinv (w.extractLsb' 16 6) (w.extractLsb' 10 6) (w.extractLsb' 9 1) (w.extractLsb' 6 3)⟩,
  ⟨0x18C, 0x18C, none, 0x00000001, 0x00000000, none, fun w _ => .seal ⟨w.extractLsb' 16 6, w.extractLsb' 10 6, w.extractLsb' 4 6, w.extractLsb' 1 3⟩⟩,
  ⟨0x18D, 0x18D, none, 0x00000001, 0x00000000, none, fun w _ => .unseal ⟨w.extractLsb' 16 6, w.extractLsb' 10 6, w.extractLsb' 4 6, w.extractLsb' 1 3⟩⟩,
  ⟨0x19A, 0x19A, none, 0x00000000, 0x00000000, some 0x00000000, fun w x => .casg ⟨w.extractLsb' 15 7, w.extractLsb' 9 6, w.extractLsb' 2 7, w.extractLsb' 0 2, x.extractLsb' 12 20, x.extractLsb' 9 3, x.extractLsb' 6 3, x.extractLsb' 4 2, x.extractLsb' 3 1, x.extractLsb' 0 3⟩⟩,
  ⟨0x190, 0x199, none, 0x00000000, 0x00000000, some 0x00000000, fun w x => .atomg (w.extractLsb' 22 4) ⟨w.extractLsb' 15 7, w.extractLsb' 9 6, w.extractLsb' 2 7, w.extractLsb' 0 2, x.extractLsb' 12 20, x.extractLsb' 9 3, x.extractLsb' 6 3, x.extractLsb' 4 2, x.extractLsb' 3 1, x.extractLsb' 0 3⟩⟩,
  ⟨0x1AA, 0x1AA, none, 0x00000000, 0x00000000, some 0x00000000, fun w x => .cass ⟨w.extractLsb' 15 7, w.extractLsb' 9 6, w.extractLsb' 2 7, w.extractLsb' 0 2, x.extractLsb' 12 20, x.extractLsb' 9 3, x.extractLsb' 6 3, x.extractLsb' 4 2, x.extractLsb' 3 1, x.extractLsb' 0 3⟩⟩,
  ⟨0x1A0, 0x1A9, none, 0x00000000, 0x00000000, some 0x00000000, fun w x => .atoms (w.extractLsb' 22 4) ⟨w.extractLsb' 15 7, w.extractLsb' 9 6, w.extractLsb' 2 7, w.extractLsb' 0 2, x.extractLsb' 12 20, x.extractLsb' 9 3, x.extractLsb' 6 3, x.extractLsb' 4 2, x.extractLsb' 3 1, x.extractLsb' 0 3⟩⟩,
  ⟨0x1BA, 0x1BA, none, 0x00000000, 0x00000000, some 0x00000000, fun w x => .atomxCas ⟨w.extractLsb' 15 7, w.extractLsb' 9 6, w.extractLsb' 2 7, w.extractLsb' 0 2, x.extractLsb' 12 20, x.extractLsb' 9 3, x.extractLsb' 6 3, x.extractLsb' 4 2, x.extractLsb' 3 1, x.extractLsb' 0 3⟩⟩,
  ⟨0x1B0, 0x1B9, none, 0x00000000, 0x00000000, some 0x00000000, fun w x => .atomx (w.extractLsb' 22 4) ⟨w.extractLsb' 15 7, w.extractLsb' 9 6, w.extractLsb' 2 7, w.extractLsb' 0 2, x.extractLsb' 12 20, x.extractLsb' 9 3, x.extractLsb' 6 3, x.extractLsb' 4 2, x.extractLsb' 3 1, x.extractLsb' 0 3⟩⟩]

/-- Class 4: loom (R55). -/
def rows4 : List OpRow := [
  ⟨0x200, 0x200, none, 0x00000FFF, 0x00000000, none, fun w _ => .thdef (w.extractLsb' 18 4) (w.extractLsb' 12 6)⟩,
  ⟨0x201, 0x201, none, 0x000003FF, 0x00000000, none, fun w _ => .acqb (w.extractLsb' 19 3) (w.extractLsb' 13 6) (w.extractLsb' 10 3)⟩,
  ⟨0x202, 0x202, none, 0x0007FFFF, 0x00000000, none, fun w _ => .relb (w.extractLsb' 19 3)⟩,
  ⟨0x203, 0x203, none, 0x00000001, 0x00000000, none, fun w _ => .mma (w.extractLsb' 19 3) (w.extractLsb' 15 4) (w.extractLsb' 11 4) (w.extractLsb' 4 7) (w.extractLsb' 1 3)⟩,
  ⟨0x204, 0x204, none, 0x0000FFFF, 0x00000000, none, fun w _ => .mzero (w.extractLsb' 19 3) (w.extractLsb' 16 3)⟩,
  ⟨0x205, 0x205, none, 0x00000000, 0x00000000, some 0x000007FF, fun w x => .mdrn ⟨w.extractLsb' 19 3, w.extractLsb' 15 4, w.extractLsb' 9 6, w.extractLsb' 5 4, w.extractLsb' 4 1, w.extractLsb' 3 1, w.extractLsb' 0 3, x.extractLsb' 24 8, x.extractLsb' 16 8, x.extractLsb' 15 1, x.extractLsb' 11 4⟩⟩,
  ⟨0x206, 0x206, none, 0x00001FFF, 0x00000000, none, fun w _ => .mstat (w.extractLsb' 16 6) (w.extractLsb' 13 3)⟩]

/-- Class 5: porter (R56). -/
def rows5 : List OpRow := [
  ⟨0x280, 0x280, none, 0x00000001, 0x00000000, some 0x001FFFFF, fun w x => .pcpy ⟨w.extractLsb' 16 6, w.extractLsb' 10 6, w.extractLsb' 4 6, w.extractLsb' 1 3⟩ (x.extractLsb' 26 6) (x.extractLsb' 25 1) (x.extractLsb' 21 4)⟩,
  ⟨0x281, 0x281, none, 0x00000001, 0x00000000, some 0x001FFFFF, fun w x => .pput ⟨w.extractLsb' 16 6, w.extractLsb' 10 6, w.extractLsb' 4 6, w.extractLsb' 1 3⟩ (x.extractLsb' 26 6) (x.extractLsb' 25 1) (x.extractLsb' 21 4)⟩,
  ⟨0x282, 0x282, none, 0x00000001, 0x00000000, some 0x00003FFF, fun w x => .pgath ⟨w.extractLsb' 16 6, w.extractLsb' 10 6, w.extractLsb' 4 6, w.extractLsb' 1 3⟩ (x.extractLsb' 26 6) (x.extractLsb' 25 1) (x.extractLsb' 21 4) (x.extractLsb' 20 1) (x.extractLsb' 14 6)⟩,
  ⟨0x283, 0x283, none, 0x00000001, 0x00000000, some 0x001FFFFF, fun w x => .pscat ⟨w.extractLsb' 16 6, w.extractLsb' 10 6, w.extractLsb' 4 6, w.extractLsb' 1 3⟩ (x.extractLsb' 26 6) (x.extractLsb' 25 1) (x.extractLsb' 21 4)⟩,
  ⟨0x284, 0x284, none, 0x00000001, 0x00000000, some 0x03FFFFFF, fun w x => .pstream ⟨w.extractLsb' 16 6, w.extractLsb' 10 6, w.extractLsb' 4 6, w.extractLsb' 1 3⟩ (x.extractLsb' 26 6)⟩,
  ⟨0x285, 0x285, none, 0x0000FFF1, 0x00000000, none, fun w _ => .pstop (w.extractLsb' 16 6) (w.extractLsb' 1 3)⟩,
  ⟨0x286, 0x286, none, 0x00000001, 0x00000000, some 0x0C1FFFFF, fun w x => .pquant ⟨w.extractLsb' 16 6, w.extractLsb' 10 6, w.extractLsb' 4 6, w.extractLsb' 1 3⟩ (x.extractLsb' 28 4) (x.extractLsb' 25 1) (x.extractLsb' 21 4)⟩,
  ⟨0x287, 0x287, none, 0x0000FFF1, 0x00000000, none, fun w _ => .bseal (w.extractLsb' 16 6) (w.extractLsb' 1 3)⟩,
  ⟨0x288, 0x288, none, 0x0000FFFF, 0x00000000, none, fun w _ => .bwait (w.extractLsb' 16 6)⟩,
  ⟨0x289, 0x289, none, 0x00000FFF, 0x00000000, none, fun w _ => .pcred (w.extractLsb' 18 4) (w.extractLsb' 12 6)⟩]

/-- Class 6: synchronisation, control, barriers, chandler, hoops (R57). -/
def rows6 : List OpRow := [
  ⟨0x300, 0x300, none, 0x003FFFC8, 0x00000000, none, fun w _ => .fence (w.extractLsb' 4 2) (w.extractLsb' 0 3)⟩,
  ⟨0x301, 0x301, none, 0x003FFE00, 0x00000000, none, fun w _ => .dwait (w.extractLsb' 6 3) (w.extractLsb' 0 6)⟩,
  ⟨0x302, 0x302, none, 0x0000000F, 0x00000000, none, fun w _ => .waitc (w.extractLsb' 16 6) (w.extractLsb' 10 6) (w.extractLsb' 4 6)⟩,
  ⟨0x303, 0x303, none, 0x00007FFF, 0x00000000, none, fun w _ => .timewait (w.extractLsb' 16 6) (w.extractLsb' 15 1)⟩,
  ⟨0x304, 0x307, none, 0x00000000, 0x00000000, none, fun w _ => .bru (w.extractLsb' 22 2) (w.extractLsb' 16 6) (w.extractLsb' 0 16)⟩,
  ⟨0x308, 0x308, none, 0x00000000, 0x00000000, none, fun w _ => .brd (w.extractLsb' 16 6) (w.extractLsb' 0 16)⟩,
  ⟨0x309, 0x309, none, 0x003F0000, 0x00000000, none, fun w _ => .jmp (w.extractLsb' 0 16)⟩,
  ⟨0x30A, 0x30A, none, 0x00000000, 0x00000000, none, fun w _ => .call (w.extractLsb' 16 6) (w.extractLsb' 0 16)⟩,
  ⟨0x30B, 0x30B, none, 0x0000FFFF, 0x00000000, none, fun w _ => .ret (w.extractLsb' 16 6)⟩,
  ⟨0x30C, 0x30C, none, 0x003FFFFF, 0x00000000, none, fun _ _ => .exit⟩,
  ⟨0x30D, 0x30D, none, 0x003F0000, 0x00000000, none, fun w _ => .trap (w.extractLsb' 0 16)⟩,
  ⟨0x30E, 0x30E, none, 0x00007FC0, 0x00000000, none, fun w _ => .passpri (w.extractLsb' 16 6) (w.extractLsb' 15 1) (w.extractLsb' 0 6)⟩,
  ⟨0x30F, 0x30F, none, 0x003FFFFF, 0x00000000, none, fun _ _ => .yield⟩,
  ⟨0x310, 0x310, none, 0x00000000, 0x00000000, none, fun w _ => .sleep (w.extractLsb' 16 6) (w.extractLsb' 15 1) (w.extractLsb' 0 15)⟩,
  ⟨0x311, 0x311, none, 0x000000FF, 0x00000000, none, fun w _ => .launch (w.extractLsb' 15 7) (w.extractLsb' 8 7)⟩,
  ⟨0x312, 0x312, none, 0x000000FF, 0x00000000, none, fun w _ => .enq (w.extractLsb' 15 7) (w.extractLsb' 8 7)⟩,
  ⟨0x313, 0x313, none, 0x003F0000, 0x00000000, none, fun w _ => .brk (w.extractLsb' 0 16)⟩,
  ⟨0x318, 0x318, none, 0x00000000, 0x00000000, none, fun w _ => .binit (w.extractLsb' 18 4) (w.extractLsb' 12 6) (w.extractLsb' 6 6) (w.extractLsb' 0 6)⟩,
  ⟨0x319, 0x319, none, 0x000001FF, 0x00000000, none, fun w _ => .barv (w.extractLsb' 18 4) (w.extractLsb' 12 6) (w.extractLsb' 9 3)⟩,
  ⟨0x31A, 0x31A, none, 0x00000FFF, 0x00000000, none, fun w _ => .barb (w.extractLsb' 18 4) (w.extractLsb' 12 6)⟩,
  ⟨0x31B, 0x31B, none, 0x00000FFF, 0x00000000, none, fun w _ => .bwaitp (w.extractLsb' 18 4) (w.extractLsb' 12 6)⟩,
  ⟨0x31C, 0x31C, none, 0x00000018, 0x00000000, none, fun w _ => .btest (w.extractLsb' 18 4) (w.extractLsb' 12 6) (w.extractLsb' 6 6) (w.extractLsb' 5 1) (w.extractLsb' 0 3)⟩,
  ⟨0x31D, 0x31D, none, 0x0003FFFF, 0x00000000, none, fun w _ => .bdrop (w.extractLsb' 18 4)⟩,
  ⟨0x320, 0x320, none, 0x000003F1, 0x00000000, none, fun w _ => .alloc ⟨w.extractLsb' 16 6, w.extractLsb' 10 6, w.extractLsb' 1 3⟩⟩,
  ⟨0x321, 0x321, none, 0x000003F1, 0x00000000, none, fun w _ => .free ⟨w.extractLsb' 16 6, w.extractLsb' 10 6, w.extractLsb' 1 3⟩⟩,
  ⟨0x322, 0x322, none, 0x000003F1, 0x00000000, none, fun w _ => .sknew ⟨w.extractLsb' 16 6, w.extractLsb' 10 6, w.extractLsb' 1 3⟩⟩,
  ⟨0x323, 0x323, none, 0x00000000, 0x00000000, none, fun w _ => .skapp ⟨w.extractLsb' 16 6, w.extractLsb' 10 6, w.extractLsb' 4 6, w.extractLsb' 1 3⟩ (w.extractLsb' 0 1)⟩,
  ⟨0x324, 0x324, none, 0x000003F1, 0x00000000, none, fun w _ => .sklook ⟨w.extractLsb' 16 6, w.extractLsb' 10 6, w.extractLsb' 1 3⟩⟩,
  ⟨0x325, 0x325, some false, 0x00000000, 0x00000000, none, fun w _ => .sktrim ⟨w.extractLsb' 16 6, w.extractLsb' 10 6, w.extractLsb' 4 6, w.extractLsb' 1 3⟩⟩,
  ⟨0x325, 0x325, some true, 0x000003F0, 0x00000000, none, fun w _ => .sktrimDel ⟨w.extractLsb' 16 6, w.extractLsb' 10 6, w.extractLsb' 1 3⟩⟩,
  ⟨0x326, 0x326, none, 0x000003F1, 0x00000000, none, fun w _ => .skclone ⟨w.extractLsb' 16 6, w.extractLsb' 10 6, w.extractLsb' 1 3⟩⟩,
  ⟨0x327, 0x327, none, 0x00000001, 0x00000000, none, fun w _ => .skset ⟨w.extractLsb' 16 6, w.extractLsb' 10 6, w.extractLsb' 4 6, w.extractLsb' 1 3⟩⟩,
  ⟨0x328, 0x328, none, 0x00000001, 0x00000000, none, fun w _ => .skswap ⟨w.extractLsb' 16 6, w.extractLsb' 10 6, w.extractLsb' 4 6, w.extractLsb' 1 3⟩⟩,
  ⟨0x329, 0x329, none, 0x000003F1, 0x00000000, none, fun w _ => .refinc ⟨w.extractLsb' 16 6, w.extractLsb' 10 6, w.extractLsb' 1 3⟩⟩,
  ⟨0x32A, 0x32A, none, 0x000003F1, 0x00000000, none, fun w _ => .refdec ⟨w.extractLsb' 16 6, w.extractLsb' 10 6, w.extractLsb' 1 3⟩⟩,
  ⟨0x32B, 0x32B, none, 0x000003F1, 0x00000000, none, fun w _ => .poolq ⟨w.extractLsb' 16 6, w.extractLsb' 10 6, w.extractLsb' 1 3⟩⟩,
  ⟨0x330, 0x330, none, 0x00000001, 0x00000000, none, fun w _ => .asdecl ⟨w.extractLsb' 16 6, w.extractLsb' 10 6, w.extractLsb' 4 6, w.extractLsb' 1 3⟩⟩,
  ⟨0x331, 0x331, none, 0x000003F1, 0x00000000, none, fun w _ => .asdrop ⟨w.extractLsb' 16 6, w.extractLsb' 10 6, w.extractLsb' 1 3⟩⟩,
  ⟨0x332, 0x332, none, 0x000003F1, 0x00000000, none, fun w _ => .asqry ⟨w.extractLsb' 16 6, w.extractLsb' 10 6, w.extractLsb' 1 3⟩⟩,
  ⟨0x333, 0x333, none, 0x0000FFF1, 0x00000000, none, fun w _ => .vstat (w.extractLsb' 16 6) (w.extractLsb' 1 3)⟩]

/-- Class 7: system (R58). -/
def rows7 : List OpRow := [
  ⟨0x380, 0x380, none, 0x00007F00, 0x00000000, none, fun w _ => .srd (w.extractLsb' 15 7) (w.extractLsb' 0 8)⟩,
  ⟨0x381, 0x381, none, 0x003F8000, 0x00000000, none, fun w _ => .swr (w.extractLsb' 8 7) (w.extractLsb' 0 8)⟩,
  ⟨0x382, 0x382, none, 0x00000000, 0x00000000, none, fun w _ => .tmark (w.extractLsb' 16 6) (w.extractLsb' 0 16)⟩]

/-- The rows of a class (R47). -/
def classRows (c : Nat) : List OpRow :=
  match c with
  | 0 => rows0
  | 1 => rows1
  | 2 => rows2
  | 3 => rows3
  | 4 => rows4
  | 5 => rows5
  | 6 => rows6
  | _ => rows7

/-- The row covers the opcode, and bit 0 where it tells two rows apart. -/
def OpRow.covers (r : OpRow) (op : Nat) (w : Word) : Bool :=
  r.lo ≤ op && op ≤ r.hi && (r.bit0 == none || r.bit0 == some (w.getLsbD 0))

/-- The opcode of a word: bits [31:22] (R36). -/
def opcodeOf (w : Word) : Nat := (w.extractLsb' 22 10).toNat

/-- The map 0 row of an opcode, or none where map 0 assigns nothing (R48). -/
def findRow (op : Nat) (w : Word) : Option OpRow := (classRows (op / 128)).find? fun r => r.covers op w

/-- Map 0 assigns the opcode (R48, R62). -/
def assigned (op : Nat) : Bool := (findRow op 0).isSome

/-- A decode map image (R61): 1,024 entries; the empty list stands for map 0. -/
abbrev MapImage := List (BitVec 16)

/-- The map 0 opcode an opcode stands for, or none (R47 step 2, R61). -/
def mapOpcode (m : MapImage) (op : Nat) : Option Nat :=
  match m with
  | [] => some op
  | _ =>
    match m[op]? with
    | some e => if e.getLsbD 15 then some (e.extractLsb' 0 10).toNat else none
    | none => none

/-- A word with its opcode replaced by the map 0 opcode. -/
def withOpcode (w : Word) (op : Nat) : Word := BitVec.ofNat 10 op ++ w.extractLsb' 0 22

/-- Words an instruction takes by its opcode: 2 with a literal or extension word (R47 step 3). -/
def OpRow.len (r : OpRow) : Nat := if r.ext.isSome then 2 else 1

/-- Build the instruction of a row, refusing non-zero reserved bits. -/
def OpRow.build (r : OpRow) (w x : Word) : Except DecodeError Instr :=
  if w &&& r.zero != 0 then .error .reservedField
  else if w &&& r.one != r.one then .error .reservedField
  else
    match r.ext with
    | some zx => if x &&& zx != 0 then .error .reservedField else .ok (r.make w x)
    | none => .ok (r.make w x)

/-- Decode the instruction at the head of a list of words, through a decode map (R47). -/
def decode (m : MapImage) (ws : List Word) : Except DecodeError (Instr × List Word) :=
  match ws with
  | [] => .error .truncated
  | raw :: rest =>
    match mapOpcode m (opcodeOf raw) with
    | none => .error .illegalOpcode
    | some op =>
      let w := withOpcode raw op
      match findRow op w with
      | none => .error .illegalOpcode
      | some r =>
        match r.ext, rest with
        | some _, [] => .error .truncated
        | some _, x :: rest' => (r.build w x).map fun i => (i, rest')
        | none, _ => (r.build w 0).map fun i => (i, rest)

/-- Four bytes as a little-endian word (R65). -/
def wordOfBytes (b0 b1 b2 b3 : Byte) : Word := b3 ++ b2 ++ b1 ++ b0

/-- The bytes of a word, lowest address first (R65). -/
def bytesOfWord (w : Word) : List Byte :=
  [w.extractLsb' 0 8, w.extractLsb' 8 8, w.extractLsb' 16 8, w.extractLsb' 24 8]

/-- The whole words a list of bytes holds, in order. -/
def wordsOfBytes : List Byte → List Word
  | b0 :: b1 :: b2 :: b3 :: rest => wordOfBytes b0 b1 b2 b3 :: wordsOfBytes rest
  | _ => []

/-- Decode the instruction at the head of any bytes, under map 0. -/
def decodeBytes (bs : List Byte) : Except DecodeError (Instr × List Word) := decode [] (wordsOfBytes bs)

/-- The words of a program instruction under map 0; a device step or a command has none. -/
def encode : Instr → List Word
  | .vadd w ⟨d, a, b, sb⟩ => [0x0#9 ++ w ++ d ++ a ++ b ++ sb]
  | .vsub w ⟨d, a, b, sb⟩ => [0x1#9 ++ w ++ d ++ a ++ b ++ sb]
  | .vmullo w ⟨d, a, b, sb⟩ => [0x2#9 ++ w ++ d ++ a ++ b ++ sb]
  | .vmulhi u ⟨d, a, b, sb⟩ => [0x3#9 ++ u ++ d ++ a ++ b ++ sb]
  | .vmad w ⟨d, a, b, sb⟩ => [0x4#9 ++ w ++ d ++ a ++ b ++ sb]
  | .vmin u ⟨d, a, b, sb⟩ => [0x5#9 ++ u ++ d ++ a ++ b ++ sb]
  | .vmax u ⟨d, a, b, sb⟩ => [0x6#9 ++ u ++ d ++ a ++ b ++ sb]
  | .vabs ⟨d, b, sb⟩ => [0xe#10 ++ d ++ 0#7 ++ b ++ sb]
  | .vneg ⟨d, b, sb⟩ => [0xf#10 ++ d ++ 0#7 ++ b ++ sb]
  | .vand ⟨d, a, b, sb⟩ => [0x10#10 ++ d ++ a ++ b ++ sb]
  | .vor ⟨d, a, b, sb⟩ => [0x11#10 ++ d ++ a ++ b ++ sb]
  | .vxor ⟨d, a, b, sb⟩ => [0x12#10 ++ d ++ a ++ b ++ sb]
  | .vnot ⟨d, b, sb⟩ => [0x13#10 ++ d ++ 0#7 ++ b ++ sb]
  | .vshl ⟨d, a, b, sb⟩ => [0x14#10 ++ d ++ a ++ b ++ sb]
  | .vshr ⟨d, a, b, sb⟩ => [0x15#10 ++ d ++ a ++ b ++ sb]
  | .vsar ⟨d, a, b, sb⟩ => [0x16#10 ++ d ++ a ++ b ++ sb]
  | .vrot ⟨d, a, b, sb⟩ => [0x17#10 ++ d ++ a ++ b ++ sb]
  | .vpopc ⟨d, b, sb⟩ => [0x18#10 ++ d ++ 0#7 ++ b ++ sb]
  | .vclz ⟨d, b, sb⟩ => [0x19#10 ++ d ++ 0#7 ++ b ++ sb]
  | .vbfe u ⟨d, a, b, sb⟩ => [0xd#9 ++ u ++ d ++ a ++ b ++ sb]
  | .vbfi ⟨d, a, b, sb⟩ => [0x1c#10 ++ d ++ a ++ b ++ sb]
  | .vcmp c ⟨d, a, b, sb⟩ => [0x2#6 ++ c ++ d ++ a ++ b ++ sb]
  | .vmovl d lit => [0x2a#10 ++ d ++ 0#15, lit]
  | .vaddc ⟨d, a, b, sb⟩ co ci => [0x2b#10 ++ d ++ a ++ b ++ sb, co ++ ci ++ 0#20]
  | .vsubb ⟨d, a, b, sb⟩ co ci => [0x2c#10 ++ d ++ a ++ b ++ sb, co ++ ci ++ 0#20]
  | .vsel ⟨d, a, b, sb⟩ sm => [0x2d#10 ++ d ++ a ++ b ++ sb, sm ++ 0#26]
  | .vmov w ⟨d, b, sb⟩ => [0x17#9 ++ w ++ d ++ 0#7 ++ b ++ sb]
  | .sadd ⟨d, a, b⟩ => [0x40#10 ++ d ++ a ++ b ++ 1#1]
  | .ssub ⟨d, a, b⟩ => [0x41#10 ++ d ++ a ++ b ++ 1#1]
  | .smullo ⟨d, a, b⟩ => [0x42#10 ++ d ++ a ++ b ++ 1#1]
  | .smulhiI64 ⟨d, a, b⟩ => [0x43#10 ++ d ++ a ++ b ++ 1#1]
  | .smulhiN64 ⟨d, a, b⟩ => [0x44#10 ++ d ++ a ++ b ++ 1#1]
  | .smad ⟨d, a, b⟩ => [0x45#10 ++ d ++ a ++ b ++ 1#1]
  | .smin u ⟨d, a, b⟩ => [0x23#9 ++ u ++ d ++ a ++ b ++ 1#1]
  | .smax u ⟨d, a, b⟩ => [0x24#9 ++ u ++ d ++ a ++ b ++ 1#1]
  | .sabs ⟨d, b⟩ => [0x4a#10 ++ d ++ 0#7 ++ b ++ 1#1]
  | .sneg ⟨d, b⟩ => [0x4b#10 ++ d ++ 0#7 ++ b ++ 1#1]
  | .sand ⟨d, a, b⟩ => [0x4c#10 ++ d ++ a ++ b ++ 1#1]
  | .sor ⟨d, a, b⟩ => [0x4d#10 ++ d ++ a ++ b ++ 1#1]
  | .sxor ⟨d, a, b⟩ => [0x4e#10 ++ d ++ a ++ b ++ 1#1]
  | .snot ⟨d, b⟩ => [0x4f#10 ++ d ++ 0#7 ++ b ++ 1#1]
  | .sshl ⟨d, a, b⟩ => [0x50#10 ++ d ++ a ++ b ++ 1#1]
  | .sshr ⟨d, a, b⟩ => [0x51#10 ++ d ++ a ++ b ++ 1#1]
  | .ssar ⟨d, a, b⟩ => [0x52#10 ++ d ++ a ++ b ++ 1#1]
  | .srot ⟨d, a, b⟩ => [0x53#10 ++ d ++ a ++ b ++ 1#1]
  | .spopc ⟨d, b⟩ => [0x54#10 ++ d ++ 0#7 ++ b ++ 1#1]
  | .sclz ⟨d, b⟩ => [0x55#10 ++ d ++ 0#7 ++ b ++ 1#1]
  | .sbfe u ⟨d, a, b⟩ => [0x2b#9 ++ u ++ d ++ a ++ b ++ 1#1]
  | .sbfi ⟨d, a, b⟩ => [0x58#10 ++ d ++ a ++ b ++ 1#1]
  | .smov ⟨d, b⟩ => [0x59#10 ++ d ++ 0#7 ++ b ++ 1#1]
  | .ssel ⟨d, a, b⟩ sm => [0x5a#10 ++ d ++ a ++ b ++ 1#1, sm ++ 0#26]
  | .scmp c ⟨d, a, b⟩ => [0x6#6 ++ c ++ d ++ a ++ b ++ 1#1]
  | .saddc ⟨d, a, b⟩ co ci => [0x6a#10 ++ d ++ a ++ b ++ 1#1, co ++ ci ++ 0#20]
  | .ssubb ⟨d, a, b⟩ co ci => [0x6b#10 ++ d ++ a ++ b ++ 1#1, co ++ ci ++ 0#20]
  | .smovl d h lit => [0x7e#10 ++ d ++ 0#14 ++ h, lit]
  | .saddl d a lit => [0x7f#10 ++ d ++ a ++ 0#8, lit]
  | .vfadd r ⟨d, a, b, sb⟩ => [0x20#8 ++ r ++ d ++ a ++ b ++ sb]
  | .vfsub r ⟨d, a, b, sb⟩ => [0x21#8 ++ r ++ d ++ a ++ b ++ sb]
  | .vfmul r ⟨d, a, b, sb⟩ => [0x22#8 ++ r ++ d ++ a ++ b ++ sb]
  | .vfma r ⟨d, a, b, sb⟩ => [0x30#8 ++ r ++ d ++ a ++ b ++ sb]
  | .vfmal r ⟨d, a, b, sb⟩ lit => [0x31#8 ++ r ++ d ++ a ++ b ++ sb, lit]
  | .vfmin ⟨d, a, b, sb⟩ => [0x8c#10 ++ d ++ a ++ b ++ sb]
  | .vfmax ⟨d, a, b, sb⟩ => [0x8d#10 ++ d ++ a ++ b ++ sb]
  | .vfcmp c ⟨d, a, b, sb⟩ => [0x12#7 ++ c ++ d ++ a ++ b ++ sb]
  | .vfclass ⟨d, b, sb⟩ => [0x98#10 ++ d ++ 0#7 ++ b ++ sb]
  | .vfrnd r ⟨d, b, sb⟩ => [0x27#8 ++ r ++ d ++ 0#7 ++ b ++ sb]
  | .vfcvt sat r d a dt st => [0x14#7 ++ sat ++ r ++ d ++ a ++ dt ++ st]
  | .vfpack bf ⟨d, a, b, sb⟩ => [0x54#9 ++ bf ++ d ++ a ++ b ++ sb]
  | .vhadd2 bf ⟨d, a, b, sb⟩ => [0x58#9 ++ bf ++ d ++ a ++ b ++ sb]
  | .vhmul2 bf ⟨d, a, b, sb⟩ => [0x59#9 ++ bf ++ d ++ a ++ b ++ sb]
  | .vhfma2 bf ⟨d, a, b, sb⟩ => [0x5a#9 ++ bf ++ d ++ a ++ b ++ sb]
  | .vex2 d a dc => [0x100#10 ++ d ++ a ++ dc ++ 0#5]
  | .vlg2 d a dc => [0x101#10 ++ d ++ a ++ dc ++ 0#5]
  | .vrcp d a dc => [0x102#10 ++ d ++ a ++ dc ++ 0#5]
  | .vrsq d a dc => [0x103#10 ++ d ++ a ++ dc ++ 0#5]
  | .vsqrt d a dc => [0x104#10 ++ d ++ a ++ dc ++ 0#5]
  | .vsint d a dc => [0x105#10 ++ d ++ a ++ dc ++ 0#5]
  | .vcost d a dc => [0x106#10 ++ d ++ a ++ dc ++ 0#5]
  | .vtanh d a dc => [0x107#10 ++ d ++ a ++ dc ++ 0#5]
  | .vshflSel ⟨d, a, b, sb⟩ dc seg => [0x110#10 ++ d ++ a ++ b ++ sb, 0#20 ++ dc ++ 0#6 ++ seg]
  | .vshflRol ⟨d, a, b, sb⟩ dc seg => [0x111#10 ++ d ++ a ++ b ++ sb, 0#20 ++ dc ++ 0#6 ++ seg]
  | .vshflSlide ⟨d, a, b, sb⟩ dc seg => [0x112#10 ++ d ++ a ++ b ++ sb, 0#20 ++ dc ++ 0#6 ++ seg]
  | .vshflAx ⟨d, a, b, sb⟩ dc seg => [0x113#10 ++ d ++ a ++ b ++ sb, 0#20 ++ dc ++ 0#6 ++ seg]
  | .vvoteAny d a dc => [0x118#10 ++ d ++ a ++ dc ++ 0#5]
  | .vvoteAll d a dc => [0x119#10 ++ d ++ a ++ dc ++ 0#5]
  | .vvoteBallot d a dc => [0x11a#10 ++ d ++ a ++ dc ++ 0#5]
  | .vred d a o x dc => [0x120#10 ++ d ++ a ++ o ++ x ++ dc]
  | .vscan d a o x dc => [0x121#10 ++ d ++ a ++ o ++ x ++ dc]
  | .vhamm w ⟨sd, a, sq, rad, dc, wd, ve⟩ => [0x94#9 ++ w ++ sd ++ a ++ sq ++ 0#3, 0#8 ++ rad ++ 0#4 ++ dc ++ wd ++ ve ++ 0#1]
  | .vlanes d sm sc dc => [0x130#10 ++ d ++ sm ++ sc ++ dc]
  | .ldg ⟨d, sbase, vidx, scale, off, dc, scope, pol, nx, size⟩ => [0x180#10 ++ d ++ sbase ++ vidx ++ scale, off ++ dc ++ scope ++ pol ++ nx ++ size]
  | .stg ⟨d, sbase, vidx, scale, off, dc, scope, pol, nx, size⟩ => [0x181#10 ++ d ++ sbase ++ vidx ++ scale, off ++ dc ++ scope ++ pol ++ nx ++ size]
  | .ldgu ⟨d, sbase, vidx, scale, off, dc, scope, pol, nx, size⟩ => [0x182#10 ++ d ++ sbase ++ vidx ++ scale, off ++ dc ++ scope ++ pol ++ nx ++ size]
  | .lds ⟨d, sbase, vidx, scale, off, dc, scope, pol, nx, size⟩ => [0x183#10 ++ d ++ sbase ++ vidx ++ scale, off ++ dc ++ scope ++ pol ++ nx ++ size]
  | .sts ⟨d, sbase, vidx, scale, off, dc, scope, pol, nx, size⟩ => [0x184#10 ++ d ++ sbase ++ vidx ++ scale, off ++ dc ++ scope ++ pol ++ nx ++ size]
  | .ldx ⟨d, sbase, vidx, scale, off, dc, scope, pol, nx, size⟩ => [0x185#10 ++ d ++ sbase ++ vidx ++ scale, off ++ dc ++ scope ++ pol ++ nx ++ size]
  | .stx ⟨d, sbase, vidx, scale, off, dc, scope, pol, nx, size⟩ => [0x186#10 ++ d ++ sbase ++ vidx ++ scale, off ++ dc ++ scope ++ pol ++ nx ++ size]
  | .ldrot ⟨d, sbase, vidx, scale, off, dc, scope, pol, nx, size⟩ => [0x187#10 ++ d ++ sbase ++ vidx ++ scale, off ++ dc ++ scope ++ pol ++ nx ++ size]
  | .stnt ⟨d, sbase, vidx, scale, off, dc, scope, pol, nx, size⟩ => [0x188#10 ++ d ++ sbase ++ vidx ++ scale, off ++ dc ++ scope ++ pol ++ nx ++ size]
  | .pref ⟨d, sbase, vidx, scale, off, dc, scope, pol, nx, size⟩ => [0x189#10 ++ d ++ sbase ++ vidx ++ scale, off ++ dc ++ scope ++ pol ++ nx ++ size]
  | .drain dc => [0x18a#10 ++ 0#13 ++ dc ++ 0#6]
  | .cinv a b all dc => [0x18b#10 ++ a ++ b ++ all ++ dc ++ 0#6]
  | .seal ⟨d, a, b, dc⟩ => [0x18c#10 ++ d ++ a ++ b ++ dc ++ 0#1]
  | .unseal ⟨d, a, b, dc⟩ => [0x18d#10 ++ d ++ a ++ b ++ dc ++ 0#1]
  | .casg ⟨d, sbase, vidx, scale, off, dc, scope, pol, nx, size⟩ => [0x19a#10 ++ d ++ sbase ++ vidx ++ scale, off ++ dc ++ scope ++ pol ++ nx ++ size]
  | .atomg k ⟨d, sbase, vidx, scale, off, dc, scope, pol, nx, size⟩ => [0x19#6 ++ k ++ d ++ sbase ++ vidx ++ scale, off ++ dc ++ scope ++ pol ++ nx ++ size]
  | .cass ⟨d, sbase, vidx, scale, off, dc, scope, pol, nx, size⟩ => [0x1aa#10 ++ d ++ sbase ++ vidx ++ scale, off ++ dc ++ scope ++ pol ++ nx ++ size]
  | .atoms k ⟨d, sbase, vidx, scale, off, dc, scope, pol, nx, size⟩ => [0x1a#6 ++ k ++ d ++ sbase ++ vidx ++ scale, off ++ dc ++ scope ++ pol ++ nx ++ size]
  | .atomxCas ⟨d, sbase, vidx, scale, off, dc, scope, pol, nx, size⟩ => [0x1ba#10 ++ d ++ sbase ++ vidx ++ scale, off ++ dc ++ scope ++ pol ++ nx ++ size]
  | .atomx k ⟨d, sbase, vidx, scale, off, dc, scope, pol, nx, size⟩ => [0x1b#6 ++ k ++ d ++ sbase ++ vidx ++ scale, off ++ dc ++ scope ++ pol ++ nx ++ size]
  | .thdef h a => [0x200#10 ++ h ++ a ++ 0#12]
  | .acqb acc d dc => [0x201#10 ++ acc ++ d ++ dc ++ 0#10]
  | .relb acc => [0x202#10 ++ acc ++ 0#19]
  | .mma acc ha hb vf dc => [0x203#10 ++ acc ++ ha ++ hb ++ vf ++ dc ++ 0#1]
  | .mzero acc dc => [0x204#10 ++ acc ++ dc ++ 0#16]
  | .mdrn ⟨acc, hd, ss, dfmt, sat, scl, dc, row0, col0, cr, bk⟩ => [0x205#10 ++ acc ++ hd ++ ss ++ dfmt ++ sat ++ scl ++ dc, row0 ++ col0 ++ cr ++ bk ++ 0#11]
  | .mstat d dc => [0x206#10 ++ d ++ dc ++ 0#13]
  | .pcpy ⟨sa, sb, sc, dc⟩ clip cr bk => [0x280#10 ++ sa ++ sb ++ sc ++ dc ++ 0#1, clip ++ cr ++ bk ++ 0#21]
  | .pput ⟨sa, sb, sc, dc⟩ clip cr bk => [0x281#10 ++ sa ++ sb ++ sc ++ dc ++ 0#1, clip ++ cr ++ bk ++ 0#21]
  | .pgath ⟨sa, sb, sc, dc⟩ si cr bk wt pg => [0x282#10 ++ sa ++ sb ++ sc ++ dc ++ 0#1, si ++ cr ++ bk ++ wt ++ pg ++ 0#14]
  | .pscat ⟨sa, sb, sc, dc⟩ si cr bk => [0x283#10 ++ sa ++ sb ++ sc ++ dc ++ 0#1, si ++ cr ++ bk ++ 0#21]
  | .pstream ⟨sa, sb, sc, dc⟩ clip => [0x284#10 ++ sa ++ sb ++ sc ++ dc ++ 0#1, clip ++ 0#26]
  | .pstop a dc => [0x285#10 ++ a ++ 0#12 ++ dc ++ 0#1]
  | .pquant ⟨sa, sb, sc, dc⟩ dfmt cr bk => [0x286#10 ++ sa ++ sb ++ sc ++ dc ++ 0#1, dfmt ++ 0#2 ++ cr ++ bk ++ 0#21]
  | .bseal d dc => [0x287#10 ++ d ++ 0#12 ++ dc ++ 0#1]
  | .bwait a => [0x288#10 ++ a ++ 0#16]
  | .pcred bk a => [0x289#10 ++ bk ++ a ++ 0#12]
  | .fence ord scope => [0x300#10 ++ 0#16 ++ ord ++ 0#1 ++ scope]
  | .dwait k n => [0x301#10 ++ 0#13 ++ k ++ n]
  | .waitc d a b => [0x302#10 ++ d ++ a ++ b ++ 0#4]
  | .timewait a rel => [0x303#10 ++ a ++ rel ++ 0#15]
  | .bru c s off => [0xc1#8 ++ c ++ s ++ off]
  | .brd s off => [0x308#10 ++ s ++ off]
  | .jmp off => [0x309#10 ++ 0#6 ++ off]
  | .call s off => [0x30a#10 ++ s ++ off]
  | .ret a => [0x30b#10 ++ a ++ 0#16]
  | .exit => [0x30c#10 ++ 0#22]
  | .trap code => [0x30d#10 ++ 0#6 ++ code]
  | .passpri a i g => [0x30e#10 ++ a ++ i ++ 0#9 ++ g]
  | .yield => [0x30f#10 ++ 0#22]
  | .sleep a i n => [0x310#10 ++ a ++ i ++ n]
  | .launch d a => [0x311#10 ++ d ++ a ++ 0#8]
  | .enq d a => [0x312#10 ++ d ++ a ++ 0#8]
  | .brk code => [0x313#10 ++ 0#6 ++ code]
  | .binit k t b p => [0x318#10 ++ k ++ t ++ b ++ p]
  | .barv k d dc => [0x319#10 ++ k ++ d ++ dc ++ 0#9]
  | .barb k a => [0x31a#10 ++ k ++ a ++ 0#12]
  | .bwaitp k p => [0x31b#10 ++ k ++ p ++ 0#12]
  | .btest k d p sel dc => [0x31c#10 ++ k ++ d ++ p ++ sel ++ 0#2 ++ dc]
  | .bdrop k => [0x31d#10 ++ k ++ 0#18]
  | .alloc ⟨d, a, dc⟩ => [0x320#10 ++ d ++ a ++ 0#6 ++ dc ++ 0#1]
  | .free ⟨d, a, dc⟩ => [0x321#10 ++ d ++ a ++ 0#6 ++ dc ++ 0#1]
  | .sknew ⟨d, a, dc⟩ => [0x322#10 ++ d ++ a ++ 0#6 ++ dc ++ 0#1]
  | .skapp ⟨d, a, b, dc⟩ pb => [0x323#10 ++ d ++ a ++ b ++ dc ++ pb]
  | .sklook ⟨d, a, dc⟩ => [0x324#10 ++ d ++ a ++ 0#6 ++ dc ++ 0#1]
  | .sktrim ⟨d, a, b, dc⟩ => [0x325#10 ++ d ++ a ++ b ++ dc ++ 0#1]
  | .sktrimDel ⟨d, a, dc⟩ => [0x325#10 ++ d ++ a ++ 0#6 ++ dc ++ 1#1]
  | .skclone ⟨d, a, dc⟩ => [0x326#10 ++ d ++ a ++ 0#6 ++ dc ++ 0#1]
  | .skset ⟨d, a, b, dc⟩ => [0x327#10 ++ d ++ a ++ b ++ dc ++ 0#1]
  | .skswap ⟨d, a, b, dc⟩ => [0x328#10 ++ d ++ a ++ b ++ dc ++ 0#1]
  | .refinc ⟨d, a, dc⟩ => [0x329#10 ++ d ++ a ++ 0#6 ++ dc ++ 0#1]
  | .refdec ⟨d, a, dc⟩ => [0x32a#10 ++ d ++ a ++ 0#6 ++ dc ++ 0#1]
  | .poolq ⟨d, a, dc⟩ => [0x32b#10 ++ d ++ a ++ 0#6 ++ dc ++ 0#1]
  | .asdecl ⟨d, a, b, dc⟩ => [0x330#10 ++ d ++ a ++ b ++ dc ++ 0#1]
  | .asdrop ⟨d, a, dc⟩ => [0x331#10 ++ d ++ a ++ 0#6 ++ dc ++ 0#1]
  | .asqry ⟨d, a, dc⟩ => [0x332#10 ++ d ++ a ++ 0#6 ++ dc ++ 0#1]
  | .vstat d dc => [0x333#10 ++ d ++ 0#12 ++ dc ++ 0#1]
  | .srd d reg => [0x380#10 ++ d ++ 0#7 ++ reg]
  | .swr a reg => [0x381#10 ++ 0#7 ++ a ++ reg]
  | .tmark a code => [0x382#10 ++ a ++ code]
  | _ => []

/-- The instruction is a program instruction: it has words. -/
def Instr.isProgram (i : Instr) : Bool := !(encode i).isEmpty

/-- The opcode of a program instruction under map 0. -/
def Instr.opcode (i : Instr) : Nat :=
  match encode i with
  | w :: _ => opcodeOf w
  | [] => 0

/-- The class of a program instruction (R36). -/
def Instr.classOf (i : Instr) : Nat := i.opcode / 128

/-- The bytes of a bit pattern numbered from bit 0 of the first word, each word little-endian, with enough zero bytes
above `nbits` for the longest instruction (two words). -/
def patternWords (nbits w : Nat) : List Word :=
  let v := w % 2 ^ nbits
  [BitVec.ofNat 32 v, BitVec.ofNat 32 (v / 2 ^ 32)]

/-- The instruction the decoder reads from a bit pattern of the opcode table. -/
def decodeTableWord (nbits w : Nat) : Option Instr :=
  match decodeBytes ((patternWords nbits w).flatMap bytesOfWord) with
  | .ok (i, _) => some i
  | .error _ => none

end Sys2Proof
end

