-- ==== Sys2Proof/Machine/State.lean ====
section
/-!
DEFINITION. The state of the machine, as plain data: everything the manual gives the S24 (INVENTORY.md, "State"), with
State.reset, and the reasons a step can stop. Objects that come and go (contexts, kernels, teams, groups, operations in
flight) stand in tables keyed by number; a unit not listed in its table is in its reset condition.
-/
namespace Sys2Proof.Machine

/-- Why the machine stops with a fault. -/
inductive Fault where
  /-- A host access at an offset that lies in none of the BAR areas (R400, R401), raised by REGISTER_WRITE. Safe: the
  model stops where the part has no register. -/
  | noSuchRegister
  deriving DecidableEq, Repr

/-- Why a step is refused. -/
inductive Refusal where
  /-- An instruction not modelled yet. Safe: no next state. -/
  | notModelled (mnemonic : String)
  /-- The event's condition does not hold, so the part does not take this step now. Safe: no next state. -/
  | notEnabled
  /-- A program instruction with no running split to issue it. Safe: no next state. -/
  | noRunningSplit
  deriving DecidableEq, Repr

/-- A table keyed by number, kept in ascending key order. -/
abbrev Dict (α : Type) := List (Nat × α)

/-- A value that counts as absent until written, as a table that never lists the default. -/
abbrev Sparse (α : Type) := List (Nat × α)

/-- The memory of the package: address and byte, addresses rising, no byte zero (log 2, log 3). -/
abbrev Memory := List Host.Cell

/-! ### Splits and groups (08_groups.md) -/

/-- What holds a BLOCKED split (R135). -/
inductive Block where
  /-- Header WAIT: the counters named (R31). -/
  | header (mask : BitVec 6)
  /-- DWAIT: counter k at most n (R213). -/
  | dwait (k n : Nat)
  /-- A fence waiting for the operations listed (R212). -/
  | fence (ord scope : Nat) (ops : List Nat)
  /-- WAITC: result register, address and threshold (R214), and the value of the first write that satisfied it (R160). -/
  | waitc (d : Nat) (va : Nat) (thr : DWord) (met : Option DWord)
  /-- TIMEWAIT: the GTS target (R216). -/
  | timewait (target : Nat)
  /-- SLEEP: the island cycle count at which it ends, in thousandths (R217). -/
  | sleep (until1000 : Nat)
  /-- BWAITP: barrier and phase count awaited (R288). -/
  | bwaitp (k : Nat) (p : DWord)
  /-- BWAIT: the batch sequence awaited (R304). -/
  | bwait (seq : Nat)
  /-- LAUNCH_WAIT: the operand of each lane as read at issue, and the lanes whose records are still to be accepted (R35, R128). -/
  | launch (d : Nat) (src : List Word) (lanes : LaneMask)
  /-- A launch or an enq whose next record finds no room in the version: its number in issue order, the operand of each lane as read
  at issue, and the lanes whose records are still to be accepted, held for the token (R35, R105, R362, R364). -/
  | held (inst : Nat) (enq : Bool) (d : Nat) (src : List Word) (lanes : LaneMask)
  /-- A spill waiting for the counters to reach zero (R145 step 1). -/
  | spilling (lanes : LaneMask) (target : Nat)
  /-- A spill that found no bin (SPILL_WAIT, R146). -/
  | spillWait (lanes : LaneMask) (target : Nat)
  /-- A spill whose lanes are being written to spawn memory (R145 step 2). -/
  | spillWrite
  deriving DecidableEq, Repr

/-- The state of a split slot (R135). -/
inductive SplitSt where
  | free
  | ready
  | blocked (b : Block)
  | parked
  deriving DecidableEq, Repr

/-- A split: its state, its PC (the header to fetch next) and mask, the clause being executed with the index of the
instruction issued last (`pos`) and of the next word (`nxt`), its skip count (R142), the pages it awaits (R143), and the
operations of the group that precede it in group order (R231). -/
structure Split where
  st : SplitSt
  pc : Nat
  mask : LaneMask
  hdr : Nat
  words : List Word
  pos : Nat
  nxt : Nat
  skip : Nat
  pages : List Nat
  past : List Nat
  /-- Pages whose promotion failed, with the cause the replay takes there (R261). -/
  doom : List (Nat × Nat)
  /-- SW of the header of the clause being executed (R32). -/
  sw : Bool
  /-- The lanes that a BRD took which waited in SPILL_WAIT and issues again (R140); zero for any other. -/
  brd : LaneMask
  deriving DecidableEq, Repr

/-- A slot that holds no split. -/
def Split.empty : Split := ⟨.free, 0, 0, 0, [], 0, 0, 0, [], [], [], false, 0⟩

/-- Where a group stands (R136). RUN and WAIT follow from its splits, FAULT_WAIT from its marked lanes. -/
inductive GroupSt where
  | live
  | stoodDown
  | ended
  deriving DecidableEq, Repr

/-- A lane's recorded fatal cause (R375, R379): code, address, the instruction's clause header, word index and raw word,
and a number that tells one issue of it from another. -/
structure LaneCause where
  lane : Nat
  cause : Nat
  va : Nat
  hdr : Nat
  idx : Nat
  word : Word
  inst : Nat
  deriving DecidableEq, Repr

/-- A porter batch of a group (R303): its commands still to complete and its batch credits (barrier, bytes). -/
structure Batch where
  seq : Nat
  cmds : List Nat
  credits : List (Nat × Nat)
  /-- A command of it stopped on a fatal cause (R305). -/
  bad : Bool
  /-- Header, index and word of the first command, for a trap by its credits (R379). -/
  hdr : Nat
  idx : Nat
  word : Word
  deriving DecidableEq, Repr

/-- A trap record (R379); AGE, TEAM, RESTARTS and KTAG are the team's and its kernel's. -/
structure TrapRecord where
  code : Nat
  detail : Nat
  grp : Nat
  lanes : LaneMask
  hdr : Nat
  idx : Nat
  word : Word
  map : Nat
  gts : Nat
  causev : Nat
  deriving DecidableEq, Repr

/-- A group (R134) with its identity (R133, R149). -/
structure Group where
  team : Nat
  core : Nat
  grp : Nat
  role : Nat
  /-- Group slot of the core, 0 to 47 (R152). -/
  slot : Nat
  /-- The slot was taken under choice 2 of R148. -/
  extraSlot : Bool
  st : GroupSt
  /-- v(r) in lane l at key 32·r + l; zero where not listed. -/
  v : Sparse Word
  /-- s(n) at key n; zero where not listed. -/
  s : Sparse DWord
  /-- %fmode (R30). -/
  fmode : Word
  /-- %tid of each lane. -/
  tid : List Nat
  /-- Lanes that hold a thread (R139). -/
  holds : LaneMask
  /-- d0 to d5 (R34). -/
  dc : List Nat
  splits : List Split
  /-- Slot of the running split, if one was picked (R142). -/
  run : Option Nat
  /-- Slot of the split picked last (R142). -/
  last : Nat
  /-- The faulted-lane set (R144) and what its lanes took. -/
  faulted : LaneMask
  causes : List LaneCause
  ended : LaneMask
  spilled : LaneMask
  /-- Lanes marked in FAULT_WAIT, the split they belong to and the pages awaited (R143). -/
  marked : LaneMask
  markedSlot : Nat
  markedPages : List Nat
  /-- The split's whole mask while the marked lanes replay; zero when no replay runs. -/
  saved : LaneMask
  /-- L, the open batch and the sealed batches not complete (R303). -/
  batchL : Nat
  batchOpen : Option Batch
  batches : List Batch
  /-- Lost-locality score (R153). -/
  score : Nat
  /-- Register-store lines to load before the group issues (R159): 0 the scalar image, 1 + n granule n. -/
  toLoad : List Nat
  /-- A stop flag of a debugger's hold (R388). -/
  dbgHeld : Bool
  /-- Island cycle count, in thousandths, at which the first fatal cause entered the faulted-lane set (R377). -/
  faultSince : Option Nat
  /-- Traps of asynchronous credits to take at the next clause boundary (R279). -/
  asyncTraps : List TrapRecord
  /-- Porter stops to record at the next clause boundary: issue mask and cause (R305). -/
  pendStops : List (LaneMask × LaneCause)
  /-- Island cycle count, in thousandths, at which the unbroken run of cycles began in which it has been eligible since it last
  issued (R152); none where it is not eligible. -/
  elig : Option Nat
  /-- Counts up to which it is not eligible by the timing of its instruction, and up to which it yields to the others of its
  slot (R32, R152, R217). -/
  idleTo : Nat
  yieldTo : Nat
  /-- Whether the last setting of the memory cap admits it; none where it has come since (R154). -/
  memOk : Option Bool
  /-- The running split was picked, and waits for its clause to come from a peer (R33, R142). -/
  fetching : Bool
  deriving DecidableEq, Repr

/-! ### Operations in flight (02_encoding.md R34, R35) -/

/-- A register result that waits to be written in one lane: consecutive registers from `reg` (R35). -/
structure LaneOut where
  lane : Nat
  reg : Nat
  vals : List Word
  deriving DecidableEq, Repr

/-- Which storage an access names (R37, R38). -/
inductive Space where
  /-- A virtual address of the team's context. -/
  | global
  /-- The team's own window, by offset. -/
  | window
  /-- A window of the cluster, by cluster scratchpad address. -/
  | remote
  deriving DecidableEq, Repr

/-- What a memory instruction does at each location. -/
inductive AccKind where
  | load
  | store
  /-- stnt (R202). -/
  | storeNt
  /-- pref (R204). -/
  | pref
  /-- ldrot (R200). -/
  | rot
  /-- An atomic by its sub-operation (R208); 10 is the compare-and-swap. -/
  | atomic (k : Nat)
  /-- A porter's read and its write (R305). -/
  | pread
  | pwrite
  deriving DecidableEq, Repr

/-- Where one access of an operation stands. -/
inductive UnitSt where
  /-- Not performed yet. -/
  | pending
  /-- Waiting at its home slice: a held touch (R355), a hold queue (R263) or a held item of a version (R362). -/
  | held
  /-- Performed, with the bytes read. -/
  | done
  /-- Parked at its core for a page that was gone when its hold ended (R264). -/
  | parked (page : Nat)
  /-- Ended with a lane cause (R194). -/
  | failed (cause : Nat)
  /-- Delivered, or discarded with its stopping team (R355). -/
  | gone
  deriving DecidableEq, Repr

/-- A block descriptor (R337), but for its VA, its key, and its pool, found from that. -/
structure Block1 where
  gen : Nat
  pb : DWord
  ref : Nat
  fmt : Nat
  dm1 : Nat
  alloc : Bool
  deriving DecidableEq, Repr

/-- One single-copy access of an operation (R229): the lane, which half of 16 bytes (for a porter command 0 for a read,
1 + its row for a write), the address in its space, its bytes, the data it carries and the bytes it has read. -/
structure Access where
  lane : Nat
  half : Nat
  addr : Nat
  n : Nat
  data : List Byte
  got : List Byte
  st : UnitSt
  /-- Tag of a link request in flight for it (R397). -/
  req : Option Nat
  /-- The block and descriptor that a ldrot over a link is bound to since its request set out (R200, R340). -/
  desc : Option (Nat × Block1)
  /-- Its sector has been read in place, on the remote budget (R265). -/
  slow : Bool
  deriving DecidableEq, Repr

/-- The accesses of a memory instruction: what it does and where, destination register, size code, made once for the
group (ldgu), returning a value, ordering and scope of an atomic, cache policy, and the accesses. -/
structure MemWork where
  kind : AccKind
  space : Space
  d : Nat
  size : Nat
  uniform : Bool
  ret : Bool
  ord : Nat
  scope : Nat
  pol : Nat
  units : List Access
  deriving DecidableEq, Repr

/-- The device work that remains of an operation. -/
inductive Work where
  /-- None: the results are known and only wait to be written. -/
  | none
  /-- Memory accesses (R192 to R210). -/
  | mem (m : MemWork)
  /-- drain: the non-temporal stores it waits for (R203). -/
  | drain (ops : List Nat)
  /-- seal or unseal of a region, and whether its team was in a version at its issue (R206): what remains is its wait. -/
  | seal (isUnseal inVersion : Bool) (base size : Nat)
  /-- An entry of a loom's queue, which is found by the operation's number (R322). -/
  | loom
  /-- A chandler operation, performed in one step at its completion (R345): its operation and captured operands, and whether it
  found no room in its version and waits for the token (R362). -/
  | chandler (op : Nat) (args : List DWord) (held : Bool)
  /-- asdecl waiting for versions, and whether its team was in one at its issue (R367, R368). -/
  | asdecl (inVersion : Bool) (base size g : Nat)
  deriving DecidableEq, Repr

/-- The instruction family of an operation: which completion step it takes. -/
inductive Family where
  | sfu
  | crosslane
  | memory
  | atomic
  | drain
  | seal
  | unseal
  | porter
  | loom
  | chandler
  | asdecl
  /-- cinv, acqb, mstat, barv, btest, bseal, asdrop, asqry, vstat, pstop. -/
  | short
  deriving DecidableEq, Repr

/-- An operation in flight: who issued it and on which core, from which split and instruction, its counter, the operations
before it in group order (R231), the operations it must wait for as a release (R210), its work, and its results; last, the
releases of a narrow scope performed before it: the number of each and its scope (R232, log 50). -/
structure Op where
  group : Nat
  team : Nat
  core : Nat
  fam : Family
  dc : Option Nat
  hdr : Nat
  idx : Nat
  word : Word
  slot : Nat
  mask : LaneMask
  after : List Nat
  waits : List Nat
  work : Work
  vout : List LaneOut
  sout : List (Nat × DWord)
  /-- Releases of scopes narrower than the device that left it behind: number and scope (log 50). -/
  marks : List (Nat × Nat)
  /-- Of an acquire: a later access of its group was performed before it, with the number of that (log 50). -/
  passed : Option Nat
  /-- GTS of the sieve's first emission for its instruction (R258). -/
  fgts : Option Nat
  /-- Island cycle count of its core, in thousandths, at its issue (log 1). -/
  at1000 : Nat
  deriving DecidableEq, Repr

/-! ### Teams and kernels (07_kernels.md, 08_groups.md) -/

/-- The state of a team (R137). -/
inductive TeamSt where
  | running
  | preempted
  | swapped
  | wounded
  | halting
  | committing
  | retired
  deriving DecidableEq, Repr

/-- The state of a kernel (R116); BUILT is not the device's. -/
inductive KernelSt where
  | enqueued
  | ready
  | dispatching
  | running
  | draining
  | complete
  | faulted
  | cancelled
  deriving DecidableEq, Repr

/-- Where a kernel's record was held (R122). -/
inductive Source where
  | segment (asid qid slice : Nat)
  | pending (team : Nat)
  deriving DecidableEq, Repr

/-- A dependency edge (R118). -/
structure Edge where
  waitVa : Nat
  waitVal : DWord
  all : Bool
  ignFail : Bool
  /-- Base and size of each region in use. -/
  regions : List (Nat × Nat)
  deriving DecidableEq, Repr

/-- A kernel: its launch record (R106) and its life (R116). -/
structure Kernel where
  asid : Nat
  rcd : BitVec 1024
  depth : Nat
  st : KernelSt
  src : Source
  /-- The edge list once read (R117). -/
  edges : Option (List Edge)
  /-- Distributor that took it, if one has. -/
  dist : Option Nat
  /-- Core pointer (R124). -/
  ptr : Nat
  /-- Next team to place, in linear order. -/
  next : Nat
  /-- The code as of the launch edge: per X page, its cells by virtual address (R33). -/
  code : List (Nat × Memory)
  /-- Sectors of code brought over a link, and those whose request failed, with the cause (R33, R256). -/
  codeHave : List Nat
  codeFail : List (Nat × Nat)
  /-- Words of its edge list and counters brought over a link, by address, and failures with the cause (R117, R119). -/
  edgeHave : Dict DWord
  edgeFail : List (Nat × Nat)
  /-- Evaluations that have found a page not present: what an earlier one asked of a peer serves no later one (R117). -/
  edgeRound : Nat
  /-- The counter has been stepped (R121, R122). -/
  stepped : Bool
  /-- SOURCE of the fault records of its counter step, from the step's first attempt on (R122). -/
  stepSrc : Option Nat
  /-- The team waiting for arena space has been counted (R93). -/
  arenaCounted : Bool
  /-- A fatal trap has struck it (R123). -/
  trapped : Bool
  deriving DecidableEq, Repr

/-- A barrier register of a team (R275). -/
structure Barrier where
  armed : Bool
  texp : Nat
  tinit : Nat
  bexp : Nat
  tarr : Nat
  bcred : Nat
  pinit : Nat
  phase : Nat
  /-- Threads in state ARRIVED and DROPPED, by %tid (R276), and how many dropped in the open phase. -/
  arrived : List Nat
  dropped : List Nat
  dropNow : Nat
  /-- Spilled to the arena (R281), and the reading of the counter of uses at its last touch. -/
  spilled : Bool
  touched : Nat
  deriving DecidableEq, Repr

/-- An UNARMED entry with arrivals NONE (R274). -/
def Barrier.unarmed : Barrier := ⟨false, 0, 0, 0, 0, 0, 0, 0, [], [], 0, false, 0⟩

/-- A bank name of a team (R311, R315). -/
inductive BankName where
  | unbound
  | bound (bank : Nat)
  /-- Evicted, with the saved elements and NaN flag, and whether the bank came from the team's reservation. -/
  | evicted (elems : Sparse Word) (nan kept : Bool)
  deriving DecidableEq, Repr

/-- A fault record (R259). -/
structure FaultRecord where
  source : Nat
  team : Nat
  merged : Bool
  cause : Nat
  acc : Nat
  sc : Nat
  asid : Nat
  mask : Nat
  gts : Nat
  va : Nat
  deriving DecidableEq, Repr

/-- A sector of a version (R361): its address space and base, and the bytes written in it. -/
structure VSector where
  asid : Nat
  va : Nat
  bytes : Dict Byte
  deriving DecidableEq, Repr

/-- The state of a version (R363). -/
inductive VersionSt where
  | forming
  | committing
  | committed
  | discarded
  deriving DecidableEq, Repr

/-- A chandler operation held with a version, or the undo of an immediate one (R347): its operation and operands, its number
in issue order, and its opcode in the raw word (R387). -/
structure ChandlerItem where
  op : Nat
  args : List DWord
  inst : Nat
  raw : Nat
  deriving DecidableEq, Repr

/-- A launch or enq record held with a version (R131, R112): the issue it comes from, the queue of an enq, its lane, and the
opcode of its raw word (R387). -/
structure HeldRec where
  inst : Nat
  queue : Option Nat
  lane : Nat
  rcd : BitVec 1024
  raw : Nat
  deriving DecidableEq, Repr

/-- A team's version (R361, R363) and its standing towards the token (R364). -/
structure Version where
  st : VersionSt
  sectors : List VSector
  /-- Held launch and enq records in issue order. -/
  recs : List HeldRec
  /-- Held chandler operations in order, and what undoes the immediate ones, latest first (R347). -/
  helds : List ChandlerItem
  undo : List ChandlerItem
  /-- Charge so far (R361). -/
  used : Nat
  tokenWait : Bool
  irrevocable : Bool
  deriving DecidableEq, Repr

/-- A version at placement and restart (R363). -/
def Version.fresh : Version := ⟨.forming, [], [], [], [], 0, false, false⟩

/-- A stream of a porter (R300): its team and group, its number in its batch, the ring and layout records as read, base
and clip, the open phase of each slot barrier at setup, the next tile, the tile it ends with once it has been stopped, and the tile in
flight, by operation; then what its faults are reported with; last, the operations that precede it in group order, and those
that its tiles wait for (R239, R306). -/
structure Stream where
  team : Nat
  group : Nat
  cmd : Nat
  ring : BitVec 512
  layout : BitVec 512
  g : Nat
  clip : DWord
  phases : List Nat
  tile : Nat
  last : Option Nat
  flying : Option Nat
  mask : LaneMask
  hdr : Nat
  idx : Nat
  word : Word
  after : List Nat
  waits : List Nat
  deriving DecidableEq, Repr

/-- A team (R134, R137). -/
structure Team where
  kernel : Nat
  asid : Nat
  /-- Linear id (R115). -/
  lid : Nat
  core : Nat
  wbase : Nat
  wsize : Nat
  age : DWord
  restarts : Nat
  st : TeamSt
  versioned : Bool
  /-- The window stands in the core's scratchpad, or its copied-out bytes (R158). -/
  windowIn : Bool
  windowSaved : Memory
  copyingOut : Bool
  copyingIn : Bool
  barriers : Dict Barrier
  /-- Tile handles, by number; UNDEFINED where not listed (R310). -/
  handles : Dict DWord
  banks : List BankName
  /-- Unused reservations recorded at an eviction (R315). -/
  recorded : Nat
  ver : Version
  /-- Kernels in the pending-launch queue, in order (R129). -/
  pend : List Nat
  /-- Held launch records that wait for the queue after commit (R131). -/
  pendLate : List (BitVec 1024)
  /-- Loom passes done (R331). -/
  passes : Nat
  traps : List TrapRecord
  faults : List FaultRecord
  /-- GTS since which the team is away. -/
  awaySince : Nat
  /-- Island cycle count, in thousandths, since which every split waits (R160). -/
  waitSince : Option Nat
  /-- Restart at the resumption, after a wound while away (R137). -/
  restartDue : Bool
  /-- Wounds on their way to its core (R359): the AUX of their trace record and the wounding team's age. -/
  wounds : List (Nat × DWord)
  /-- Loom queue entries as they stood when the team entered HALTING, in the layout of R431. -/
  loomSnap : List (BitVec 256)
  /-- Being pre-empted (R157). -/
  stopReq : Bool
  /-- Releases of hoops still travelling after a wound (R359). -/
  releases : Nat
  /-- HALTING for a fatal trap: a dump is due (R380). -/
  dumpDue : Bool
  /-- GTS of its last placement or restart, and the cores that have held its groups since then (R382). -/
  startedAt : Nat
  cores : List Nat
  /-- The dump, once written. -/
  dumped : Bool
  /-- It is not on its core: pre-empted or swapped out, also where it has entered HALTING since (R125, R378). -/
  offCore : Bool
  deriving DecidableEq, Repr

/-! ### Pages and contexts (12_pages.md, 05_contexts.md, 06_queues.md) -/

/-- The state of a page (R249, R255). UNMAPPED pages are not listed. -/
inductive PageSt where
  | resident
  | faulting
  | migrating
  | sealed
  | remote
  | promoting
  | evicting
  deriving DecidableEq, Repr

/-- Who waits at the home slice of a page (R261). -/
inductive Waiter where
  /-- A held touch: operation and access. -/
  | touch (op unit : Nat)
  /-- A completion counter step of a kernel (R121, R122). -/
  | counter (kernel : Nat)
  /-- An inbound link request by port and tag (R396). -/
  | inbound (port tag : Nat)
  /-- An XFER command by tag, at a sector (R403). -/
  | xfer (tag va : Nat)
  /-- The write-back of a dirty sector that a cluster cache evicts (R263). -/
  | wback (va : Nat)
  deriving DecidableEq, Repr

/-- A page of 2 MiB or less, or a 2 MiB segment of a larger one (R248), with its attributes (R249). -/
structure Page where
  /-- Size class of the whole page and its base. -/
  sc : Nat
  owner : Nat
  r : Bool
  w : Bool
  x : Bool
  zero : Bool
  back : Nat
  mset : Nat
  unified : Bool
  hostlock : Bool
  stackReq : Nat
  st : PageSt
  /-- Frame: 2^37 · stack + stack address. -/
  frame : Nat
  newFrame : Nat
  loc : Locator
  locOff : Nat
  pinned : Bool
  heat : Nat
  /-- A promotion is due, by heat or PG_PROMOTE (R266). -/
  due : Bool
  /-- GTS at which the copy from the slow tier began (R255). -/
  since : Nat
  /-- Hold queue, in arrival order (R263). -/
  hold : List Waiter
  waiters : List Waiter
  /-- Reading of the counter of numbers when it was last reached, for the choice of R268. -/
  reached : Nat
  /-- Mask set of the copy in progress (PG_SETHASH). -/
  newMset : Nat
  deriving DecidableEq, Repr

/-- An attached shared range (R252). -/
structure Attach where
  shared : Nat
  base : Nat
  size : Nat
  deriving DecidableEq, Repr

/-- A region of the region table (R353). -/
structure Region where
  base : Nat
  size : Nat
  g : Nat
  deriving DecidableEq, Repr

/-- A chandler's free list of a pool (R336): the blocks pushed at its head, then the blocks never taken, from `next` on
in steps of the number of homes. -/
structure FreeList where
  pushed : List Nat
  next : Nat
  deriving DecidableEq, Repr

/-- A pool (R335): its definition and the free list of each home chandler, by stack. -/
structure Pool where
  base : Nat
  nblk : Nat
  homes : BitVec 24
  dm1 : Nat
  fmt : Nat
  bsc : Nat
  free : Dict FreeList
  deriving DecidableEq, Repr

/-- A LIVE skein (R341); E[i] at key i, 0 where not listed. -/
structure Skein where
  ring : Bool
  ns : Nat
  win : Nat
  tpb : Nat
  nb : Nat
  old : Nat
  e : Sparse Nat
  deriving DecidableEq, Repr

/-- The state of a queue (R109). -/
inductive QueueSt where
  | created
  | active
  | paused
  | draining
  deriving DecidableEq, Repr

/-- A queue (R103). Segments hold kernels. -/
structure Queue where
  prio : Nat
  c : Nat
  st : QueueSt
  cancel : Bool
  segs : Dict (List Nat)
  taken : Nat
  deriving DecidableEq, Repr

/-- The state of a context (R98). A DESTROYED context is not listed. -/
inductive CtxSt where
  | created
  | armed
  | active
  | suspended
  | draining
  deriving DecidableEq, Repr

/-- A frequency table (R84). -/
structure Freq where
  pair : Bool
  f : List Word
  deriving DecidableEq, Repr

/-- A dump of the ring (R381, R382): its sequence and the bytes it covers. -/
structure DumpEntry where
  slot : Nat
  seq : Nat
  off : Nat
  len : Nat
  deriving DecidableEq, Repr

/-- A dump being written (R381): its team, its place, the authenticated data of its entry, its text as it was taken, whether it was cut,
and the tag of the command that asked for it, where one did. -/
structure DumpDraft where
  team : Nat
  entry : DumpEntry
  aad : List Byte
  plain : List Byte
  trunc : Bool
  tag : Option Nat
  deriving DecidableEq, Repr

/-- A context (R90 to R99). -/
structure Ctx where
  st : CtxSt
  cancel : Bool
  arenaMiB : Nat
  cred : List Byte
  mapNum : Nat
  map : MapImage
  freq : Freq
  masks2 : List DWord
  masks3 : List DWord
  dumpVa : Nat
  dumpSize : Nat
  dumpBanks : Bool
  /-- The random dump key (R97, log 13); none once destroyed. -/
  dumpKey : Option (BitVec 256)
  dumpSeq : Nat
  dumps : List DumpEntry
  dumpPos : Nat
  writing : Option DumpDraft
  remoteBw : Nat
  /-- Remote budget in thousandths of a byte, and the GTS it was last filled at (R265). -/
  budget : Nat
  budgetAt : Nat
  lastSeq : Nat
  pages : Dict Page
  attach : List Attach
  pools : Dict Pool
  blocks : Dict Block1
  skeins : Dict Skein
  regions : Dict Region
  queues : Dict Queue
  faultLog : List FaultRecord
  arenaWait : Nat
  enqLost : Nat
  promoDropped : Nat
  refFault : Nat
  skeinLost : Nat
  /-- Pseudo-channel counters at key 64·stack + channel (R271). -/
  pch : Sparse Nat
  dbg : Bool
  deriving DecidableEq, Repr

/-! ### Units -/

/-- A V/F island (R16, R407). Cycles are counted in thousandths, so that MHz times nanoseconds add up exactly. -/
structure Island where
  point : Nat
  setPoint : Nat
  cyc1000 : Nat
  /-- Operating point being changed to, once asked for (R17). -/
  change : Option Nat
  stopped : Bool
  /-- Time for which it has stood still (R17). -/
  stoppedNs : Nat
  /-- The point the MP has lowered it to (R409), for which of its causes, and the GTS since which they have cleared. -/
  cap : Option Nat
  byPower : Bool
  byHeat : Bool
  clearedAt : Option Nat
  deriving DecidableEq, Repr

/-- A valid line of an L1 (R196): its address space, line address, data as filled, and the slot whose miss brought it. -/
structure L1Line where
  asid : Nat
  va : Nat
  data : List Byte
  slot : Nat
  deriving DecidableEq, Repr

/-- A bin of a plaiter (R146): key, threads with their registers, the island cycle counts, in thousandths, at which it opened
and closed, and the non-temporal stores its threads have in flight (R241). -/
structure Bin where
  team : Nat
  role : Nat
  target : Nat
  scalars : Sparse DWord
  fmode : Word
  /-- %tid and register contents (at key register number) of each thread. -/
  threads : List (Nat × Sparse Word)
  opened1000 : Nat
  closed : Option Nat
  past : List Nat
  deriving DecidableEq, Repr

/-- A record a sieve holds (R258) with the lane mask's split, to be emitted or already emitted. -/
structure SieveRec where
  rcd : FaultRecord
  group : Nat
  emitted : Bool
  /-- Its GTS is set: the first record of its instruction has been emitted (R258). -/
  stamped : Bool
  /-- Tells the records of one instruction from another's. -/
  inst : Nat
  /-- The page it names: address space · 2^64 + base. -/
  page : Nat
  deriving DecidableEq, Repr

/-- The kinds of porter command (R296); a stream's tile is a pcpy. -/
inductive PorterKind where
  | pcpy
  | pput
  | pgath
  | pscat
  | pquant
  deriving DecidableEq, Repr

/-- A porter command (R291, R296), by the operation that carries its accesses and what it is reported with: global base
(source block of a pquant), window offset (destination block), layout record and clip, index list and weights as read,
pooling, format and scale of a pquant, barrier and bytes credited, whether the checks are done (R307), its stream, the
pages it waits on (R305), the blocks it has bound, with their bytes and their descriptors (R340), and the words of its window that it has written
ahead of its completion (R229). -/
structure PorterCmd where
  op : Nat
  kind : PorterKind
  team : Nat
  g : Nat
  w : Nat
  layout : BitVec 512
  clip : DWord
  rows : List Nat
  weights : List Word
  wt : Bool
  pool : Nat
  fmt : Nat
  scale : Word
  bk : Option Nat
  checked : Bool
  stream : Option Nat
  pages : List Nat
  descs : List (Nat × Nat × Block1)
  moved : List Nat
  deriving DecidableEq, Repr

/-- A core. -/
structure Core where
  l1 : List L1Line
  /-- Victim tags, newest first: line, asid, group slot (R153). -/
  victims : List (Nat × Nat × Nat)
  /-- Memory cap MC (R154). -/
  memcap : Nat
  capAt1000 : Nat
  /-- The trace ring, oldest record first (R385, R386). -/
  trace : List (BitVec 128)
  epoch : Nat
  /-- The island cycle of the records that end the ring for issue slot 1, and how many they are: a record of slot 0 in that cycle
  enters before them (R385). -/
  traceCyc : Nat
  traceLate : Nat
  /-- Priority token of each slot: the group that holds it (R155). -/
  tok0 : Option Nat
  tok1 : Option Nat
  /-- Group slot last issued on each issue slot (R152), and the one that the latest issue displaced, for an instruction that turns out
  unable to issue. -/
  last0 : Nat
  last1 : Nat
  lastOld : Nat
  /-- Issued counts and class 3 counts per context (R28, R387). -/
  issued : Dict Nat
  memCount : Dict Nat
  sieve : List SieveRec
  /-- Wakes that have reached the core: address space, page, and the cause of a failed promotion or 0 (R261). -/
  wakes : List (Nat × Nat × Nat)
  bins : Dict Bin
  porter : List PorterCmd
  streams : Dict Stream
  deriving DecidableEq, Repr

/-- A bank of a loom (R312). -/
inductive BankSt where
  | free
  | reserved
  | owned
  | zeroing
  deriving DecidableEq, Repr

/-- A bank of a loom: state, team, reservation kept through zeroing, elements at key 256·row + column, NaN flag. -/
structure Bank where
  st : BankSt
  team : Nat
  kept : Bool
  elems : Sparse Word
  nan : Bool
  deriving DecidableEq, Repr

/-- What a loom entry asks for (R322), with its handles as captured. -/
inductive LoomWork where
  | mma (ha hb : DWord) (flags : Word)
  | zero
  | drain (hd : DWord) (scale : Option Word) (fmt : Nat) (sat : Bool) (row0 col0 : Nat) (bk : Option Nat)
  deriving DecidableEq, Repr

/-- A loom entry (R322): its operation in flight, team, issuing group's number, bank name and bank, counter, whether the
group held its slot's token, its stage (0 in the queue, 1 left it and waiting to run, 2 running), the elements a
started pass has read, of A by rows and of B by columns (R321), the cycle in which it ends, in thousandths (R320), and the window
words that a pass has read before its start, or that a drain has written before its end (R229, R321). -/
structure LoomEntry where
  op : Nat
  team : Nat
  grp : Nat
  name : Nat
  bank : Nat
  dc : Option Nat
  token : Bool
  work : LoomWork
  stage : Nat
  a : List (List Nat)
  b : List (List Nat)
  endAt : Nat
  words : List (Nat × List Byte)
  deriving DecidableEq, Repr

/-- A loom (R322, R323): its banks, the entries of its teams' queues and those that have left them, in issue order, the
island cycle count, in thousandths, at which the array is free again (R320), and the arbiter's skip counts and the place
of the team it chose last, plus one. -/
structure Loom where
  banks : Dict Bank
  queue : List LoomEntry
  busyTo1000 : Nat
  skips : Dict Nat
  lastPlace : Nat
  deriving DecidableEq, Repr

/-- A riddle entry (R260), one per page (address space · 2^64 + base). -/
structure RiddleEntry where
  rcd : FaultRecord
  page : Nat
  cores : List Nat
  forwarded : Bool
  deriving DecidableEq, Repr

/-- A sector in a cluster cache (R15): its address space and address, whether it is dirty, and whether its line was allocated
by pol 2 or stnt and goes first (R429). -/
structure CSector where
  asid : Nat
  va : Nat
  dirty : Bool
  first : Bool
  /-- The team to which its granule was granted, of a sector of a declared region (R355). -/
  team : Option Nat
  deriving DecidableEq, Repr

/-- A cluster: its riddle and the sectors its cache holds. -/
structure Cluster where
  riddle : List RiddleEntry
  sectors : List CSector
  deriving DecidableEq, Repr

/-- The state of a granule of a declared region (R356). -/
structure Hoop where
  asid : Nat
  /-- Base address of the granule. -/
  va : Nat
  team : Nat
  wounding : Bool
  /-- A release is on its way (R356). -/
  leaving : Bool
  /-- Held touches: operation and access. -/
  held : List (Nat × Nat)
  inOverflow : Bool
  deriving DecidableEq, Repr

/-- A home slice (R250, R356). -/
structure Slice where
  hoops : List Hoop
  /-- Touches held for want of an entry, and those of them that ARENA_WAIT has counted (R357). -/
  starved : List (Nat × Nat)
  counted : List (Nat × Nat)
  deriving DecidableEq, Repr

/-- A distributor (R113, R127): position per priority and cluster distance, and its DISPATCHING kernels in order. -/
structure Dist where
  /-- ptr[p][k] at key 8·p + k: the position after the last taken (asid, queue, slice). -/
  ptr : Dict (Nat × Nat × Nat)
  kernels : List Nat
  /-- Cycles of the fixed domains of its last placement and of its last search: it does at most one of each per cycle (R113,
  R127). -/
  placedAt : Option Nat
  searchedAt : Option Nat
  /-- The segment (asid, queue, slice) that its last search took a record from, if it took one from a segment (R114). -/
  took : Option (Nat × Nat × Nat)
  deriving DecidableEq, Repr

/-- The state of a link port (R393). -/
inductive PortSt where
  | down
  | training
  | attesting
  | up
  | degraded
  | draining
  | failed
  deriving DecidableEq, Repr

/-- What a link request of ours is for. -/
inductive ReqFor where
  | access (op unit : Nat)
  /-- The read of a waitc (R214). -/
  | waitc (group slot : Nat)
  /-- The counter step of a kernel (R121, R122). -/
  | counter (kernel : Nat)
  /-- 64 bytes of a kernel's code, for a core (R33). -/
  | fetch (kernel va core : Nat)
  /-- Bytes of an XFER command, by its tag (R403). -/
  | xfer (tag va : Nat)
  /-- An inbound request passed on, by its port and tag (R396). -/
  | inbound (port tag : Nat)
  /-- An edge read of a kernel's list or counter, for one of its evaluations (R117, R119). -/
  | edge (kernel va round : Nat)
  deriving DecidableEq, Repr

/-- An outbound request in flight (R397, R398). -/
structure OutReq where
  tag : Nat
  sentAt : Nat
  kind : ReqKind
  /-- The locator's window and the offset in it. -/
  window : Nat
  offset : Nat
  data : List Byte
  purpose : ReqFor
  deriving DecidableEq, Repr

/-- An inbound request accepted or waiting (R396, R398). -/
structure InReq where
  tag : Nat
  window : Nat
  offset : Nat
  kind : ReqKind
  data : List Byte
  waiting : Bool
  deriving DecidableEq, Repr

/-- What a port sends besides its requests. -/
inductive LinkMsg where
  /-- The nonce that opens an attestation, of the peer at the port, or of one behind a switch by its key hash (R394). -/
  | nonce (peer : Option (List Byte)) (bytes : List Byte)
  /-- The device's own answer to a peer's nonce: key, report and signature (R394). -/
  | attest (key report sig : List Byte)
  /-- The answer to an inbound request (R396). -/
  | answer (tag : Nat) (a : Answer)
  /-- A cancel (R398). -/
  | cancel (tag : Nat)
  /-- A time-alignment message (R399). -/
  | time (gts delay : Nat)
  deriving DecidableEq, Repr

/-- The attestation of a peer behind a switch, on its first use: its key hash, our nonce, the GTS at which it was sent, and the tags of
the requests that wait for it (R394). -/
structure PeerAsk where
  peer : List Byte
  nonce : List Byte
  since : Nat
  tags : List Nat
  deriving DecidableEq, Repr

/-- A link port (R392, R393, R397, R399). -/
structure Port where
  st : PortSt
  lanes : Nat
  timeoutUs : Nat
  tmaster : Bool
  /-- TMASTER of the peer, as training found it (R399, log 14). -/
  peerTmaster : Bool
  peer : List Byte
  /-- Peers behind a switch that are attested, and those whose attestation is under way (R394). -/
  attested : List (List Byte)
  asks : List PeerAsk
  failures : Nat
  /-- Our nonce of the attestation (R394). -/
  nonce : List Byte
  since : Nat
  /-- One-way delay measured since the peer was verified (R399). -/
  delay : Nat
  sent : Nat
  answered : Nat
  faulted : Nat
  timedOut : Nat
  late : Nat
  out : List OutReq
  inb : List InReq
  /-- Inbound requests performed: tag, exporting ASID, address and ACC (R398). -/
  performed : List (Nat × Nat × Nat × Nat)
  /-- Tags whose cancel came before the request (R398). -/
  cancelled : List Nat
  outbox : List LinkMsg
  nextTag : Nat
  /-- GTS of the last time-alignment message sent. -/
  alignedAt : Nat
  deriving DecidableEq, Repr

/-- An export window (R395). -/
structure ExportWin where
  asid : Nat
  base : Nat
  size : Nat
  r : Bool
  w : Bool
  a : Bool
  peer : List Byte
  /-- Tag of the EXP_DESTROY that waits for its last answers (R395). -/
  closing : Option Nat
  deriving DecidableEq, Repr

/-- Where an accepted page command stands. -/
inductive WaitStage where
  /-- It names a page of an earlier waiting command, and is checked after that has taken effect (R254). -/
  | behind
  /-- It waits for versions or for a migration to end (R254, R255). -/
  | versions
  /-- Its evictions are under way (R253). -/
  | evicting
  /-- It waits for a frame that an eviction frees (R266). -/
  | frames
  deriving DecidableEq, Repr

/-- A command on pages, held while it waits (R254, R257, R403). -/
inductive PageCmd where
  | map (asid va n : Nat) (attr : BitVec 64) (loc : Locator)
  | unmap (asid va n : Nat)
  | protect (asid va n : Nat) (r w x : Bool)
  | migrate (asid va stack : Nat)
  | sethash (asid va n mset : Nat)
  | evict (asid va n : Nat)
  | promote (asid va n : Nat)
  | query (asid va : Nat)
  | xlate (asid va n : Nat) (w pull : Bool)
  | giveBack (asid va n : Nat)
  | xferIn (asid va : Nat) (data : List Byte)
  | xferOut (asid va bytes : Nat)
  deriving DecidableEq, Repr

/-- A page command that waits: its response tag and what it does. -/
structure WaitingCmd where
  id : Nat
  tag : Nat
  cmd : PageCmd
  stage : WaitStage
  deriving DecidableEq, Repr

/-- An XFER command under way (R403): whether it has sent its link requests, how many are unanswered, the bytes they
brought, and whether one failed. -/
structure Xfer where
  tag : Nat
  cmd : PageCmd
  asked : Bool
  left : Nat
  got : Dict Byte
  bad : Bool
  deriving DecidableEq, Repr

/-- A frame in a request slot (R400, R402): its header, and the command that its operands make, none where they make none (log 12). -/
structure Frame where
  hdr : BitVec 128
  cmd : Option Instr
  deriving DecidableEq, Repr

/-- A mailbox response (R400). Its tag carries, above the 64 bits of TAG, the slot of its request and 32 times the ASID named. -/
structure Response where
  tag : Nat
  code : Nat
  data : List DWord
  bytes : List Byte
  deriving DecidableEq, Repr

/-- The phase of bring-up (R405, R406). -/
inductive Phase where
  | boot
  | hbmTraining
  | release
  | ready
  | recovery
  deriving DecidableEq, Repr

/-- The package: bring-up, mailbox, sensors, power, links and the token (19_links.md, 20_host_power.md). -/
structure Package where
  phase : Phase
  gts : Nat
  /-- Nanoseconds for which the GTS still counts at half rate (R399). -/
  slowNs : Nat
  reqProd : Nat
  reqCons : Nat
  rspProd : Nat
  rspCons : Nat
  /-- Request frames written by the host, by slot. -/
  reqSlots : Dict Frame
  rspSlots : Dict Response
  held : List Response
  msix : List Nat
  measurement : List Byte
  image : List Byte
  trust : List (List Byte)
  failed : List (UnitKind × Nat)
  limitW : Nat
  sensors : Sensors
  sampledAt : Nat
  /-- GTS of the last step of R409. -/
  limitAt : Nat
  /-- Junctions above 115 °C that have not fallen below 95 °C since, by their places in the sensor block (R409). -/
  tripped : List Nat
  tokenHolder : Option Nat
  lastAsid : Nat
  windows : Dict ExportWin
  deriving DecidableEq, Repr

/-- The MP's queues: fault entries on their way with the page they name (R260), page commands that wait (R254), transfers
under way, and commands taken whose context is still served another (R94); and the GTS of the last decay of heat (R266). -/
structure Mp where
  faults : List (Nat × FaultRecord)
  waiting : List WaitingCmd
  xfers : List Xfer
  later : List (Nat × Instr)
  heatAt : Nat
  deriving DecidableEq, Repr

/-- What moves next (log 4): a step of the opcode table, a pick of the running group, the passing of time, or an effect
of the outside world or of a latency that has no row of its own. -/
inductive Action where
  /-- A device step or command of the opcode table. -/
  | ev (i : Instr)
  /-- Issue from this group. -/
  | pick (group : Nat)
  /-- The group is not eligible in this island cycle, by the timing of its next instruction (R152, log 8). -/
  | hold (group : Nat)
  /-- Let time pass, in nanoseconds. -/
  | tick (ns : Nat)
  /-- Deliver the results of an operation without a step of its own. -/
  | deliver (op : Nat)
  /-- A porter access still to be made goes in two pieces, the first of n bytes (R229). -/
  | tear (op unit n : Nat)
  /-- One aligned 4-byte word of the window is written by a porter command or a drain, or read by a pass, at a time of its own
  (R229, R321). -/
  | piece (op word : Nat)
  /-- Evict a line of an L1 (R429). -/
  | l1Evict (core asid va : Nat)
  /-- The host places a command frame in its next request slot, with its TAG, and advances REQ_PROD (R400). -/
  | place (tag : Nat) (cmd : Instr)
  /-- The host writes a frame and its payload into a request slot and area, whichever it is, and advances nothing (R400, R401). -/
  | frame (slot : Nat) (hdr : BitVec 128) (cmd : Instr)
  /-- The MP takes the next request (R400). -/
  | mpTake
  /-- The MP goes on to a command it has taken and put off (R94). -/
  | mpNext
  /-- The nonce of a peer arrives, of the one at a port or of one behind a switch, and the device answers (R394). -/
  | peerNonce (port : Nat) (bytes : List Byte)
  /-- The host writes its own memory (R272) or a payload area (R401). -/
  | hostStore (addr : Nat) (data : List Byte)
  deriving DecidableEq, Repr

/-- The state of the machine. The last five fields are the model's own (log 4, log 5, log 12). -/
structure State where
  pk : Package
  islands : Dict Island
  cores : Dict Core
  looms : Dict Loom
  clusters : Dict Cluster
  slices : Dict Slice
  dists : Dict Dist
  ports : Dict Port
  mp : Mp
  ctxs : Dict Ctx
  kernels : Dict Kernel
  teams : Dict Team
  groups : Dict Group
  flight : Dict Op
  mem : Memory
  agenda : List Action
  nextId : Nat
  freeCtr : Nat
  tag : Nat
  cur : Option Nat
  deriving DecidableEq, Repr

/-! ### Reset -/

/-- An island at reset (R406): point 0, cycle count 0. -/
def Island.reset : Island := ⟨0, 0, 0, none, false, 0, none, false, false, none⟩

/-- A core at reset. The slot last issued is 47, so that the first is 0 (log 6). -/
def Core.reset : Core :=
  { l1 := [], victims := [], memcap := 48, capAt1000 := 0, trace := [], epoch := 0,
    traceCyc := 0, traceLate := 0,
    tok0 := none, tok1 := none, last0 := 47, last1 := 47, lastOld := 47, issued := [], memCount := [], sieve := [], wakes := [], bins := [],
    porter := [], streams := [] }

/-- A bank at reset: FREE, all +0, flag clear. -/
def Bank.reset : Bank := ⟨.free, 0, false, [], false⟩

/-- A loom at reset. -/
def Loom.reset : Loom := ⟨[], [], 0, [], 0⟩

/-- A cluster at reset. -/
def Cluster.reset : Cluster := ⟨[], []⟩

/-- A slice at reset. -/
def Slice.reset : Slice := ⟨[], [], []⟩

/-- A distributor at reset. -/
def Dist.reset : Dist := ⟨[], [], none, none, none⟩

/-- A port at reset: DOWN, timeout 1,000 µs (R392). -/
def Port.reset : Port :=
  { st := .down, lanes := 0, timeoutUs := 1000, tmaster := false, peerTmaster := false, peer := [],
    attested := [], asks := [], failures := 0, nonce := [],
    since := 0, delay := 0, sent := 0, answered := 0, faulted := 0, timedOut := 0, late := 0, out := [],
    inb := [], performed := [], cancelled := [], outbox := [], nextTag := 0, alignedAt := 0 }

/-- The sensor block before its first sample (log 6). -/
def Sensors.reset : Sensors :=
  ⟨List.replicate 128 0, List.replicate 5 0, List.replicate 24 0, 0, List.replicate 128 0, 0, 0⟩

/-- The package at reset (R405, R406, R409; log 6). -/
def Package.reset : Package :=
  { phase := .boot, gts := 0, slowNs := 0, reqProd := 0, reqCons := 0, rspProd := 0, rspCons := 0, reqSlots := [],
    rspSlots := [], held := [], msix := [0, 0, 0], measurement := [], image := [], trust := [], failed := [],
    limitW := 2800, sensors := Sensors.reset, sampledAt := 0, limitAt := 0, tripped := [], tokenHolder := none,
    lastAsid := 0, windows := [] }

/-- The machine right after a package reset (R405). -/
def State.reset : State :=
  { pk := Package.reset, islands := [], cores := [], looms := [], clusters := [], slices := [], dists := [], ports := [],
    mp := ⟨[], [], [], [], 0⟩, ctxs := [], kernels := [], teams := [], groups := [], flight := [], mem := [], agenda := [],
    nextId := 0, freeCtr := 0, tag := 0, cur := none }

end Sys2Proof.Machine
end

