-- ==== Sys2Proof/Machine/Ops.lean ====
section
/-!
DEFINITION. The named operations over the state: tables, memory, registers, counters, operations in flight, the trace
ring, barrier counting, taking a trap, and what follows when a split stops. Every meaning is written over these.
-/
namespace Sys2Proof.Machine

/-- The outcome of a step of this machine. -/
abbrev Out := Host.Outcome State Fault Refusal

/-! ### Tables -/

/-- The entry of a key, if any. -/
def dget {α : Type} : Dict α → Nat → Option α
  | [], _ => none
  | (k, v) :: t, n => if k = n then some v else dget t n

/-- The entry of a key, or a default. -/
def dgetD {α : Type} (m : Dict α) (n : Nat) (d : α) : α := (dget m n).getD d

/-- Write an entry, keeping keys in order. -/
def dset {α : Type} : Dict α → Nat → α → Dict α
  | [], n, v => [(n, v)]
  | (k, w) :: t, n, v =>
    if n < k then (n, v) :: (k, w) :: t else if n = k then (n, v) :: t else (k, w) :: dset t n v

/-- Remove an entry. -/
def ddel {α : Type} (m : Dict α) (n : Nat) : Dict α := m.filter fun e => e.1 != n

/-- Change an entry, where there is one. -/
def dmod {α : Type} (m : Dict α) (n : Nat) (f : α → α) : Dict α :=
  match dget m n with
  | some v => dset m n (f v)
  | none => m

/-- Put an element before the first whose key is not lower. -/
def insertOn {α : Type} (key : α → Nat) (x : α) : List α → List α
  | [] => [x]
  | y :: ys => if key x ≤ key y then x :: y :: ys else y :: insertOn key x ys

/-- A list in ascending order of a key; elements of one key keep their order. -/
def sortOn {α : Type} (key : α → Nat) : List α → List α
  | [] => []
  | x :: xs => insertOn key x (sortOn key xs)

/-- Read a sparse table: `d` where not listed. -/
def sget {α : Type} (d : α) (m : Sparse α) (n : Nat) : α := dgetD m n d

/-- Write a sparse table, dropping an entry equal to the default. -/
def sset {α : Type} [DecidableEq α] (d : α) (m : Sparse α) (n : Nat) (v : α) : Sparse α :=
  if v = d then ddel m n else dset m n v

/-- A sparse table is in canonical form: keys rise strictly and no entry holds the default. -/
def sparseWf {α : Type} [DecidableEq α] (d : α) : Sparse α → Bool
  | [] => true
  | [(_, v)] => decide (v ≠ d)
  | (k, v) :: (k', v') :: t => decide (k < k') && decide (v ≠ d) && sparseWf d ((k', v') :: t)

/-! ### Memory (log 2, log 3) -/

/-- The byte at a storage address; an unlisted address reads as zero (log 2). -/
def Memory.read (m : Memory) (a : Nat) : Byte := sget 0 m a

/-- Write one byte. -/
def Memory.write (m : Memory) (a : Nat) (b : Byte) : Memory := sset 0 m a b

/-- The bytes from an address on. -/
def Memory.readN (m : Memory) (a n : Nat) : List Byte := (List.range n).map fun i => m.read (a + i)

/-- Write bytes from an address on. -/
def Memory.writeN : Memory → Nat → List Byte → Memory
  | m, _, [] => m
  | m, a, b :: bs => Memory.writeN (m.write a b) (a + 1) bs

/-- Zero a range: forget every byte listed in it. -/
def Memory.zero (m : Memory) (a n : Nat) : Memory := m.filter fun c => c.1 < a || a + n ≤ c.1

/-- The memory is in canonical form. -/
abbrev Memory.wf (m : Memory) : Prop := sparseWf (0 : Byte) m = true

/-- Bytes as an unsigned number, little-endian (R65). -/
def leNat : List Byte → Nat
  | [] => 0
  | b :: bs => b.toNat + 256 * leNat bs

/-- The low `n` bytes of a number, little-endian (R65). -/
def leBytes : Nat → Nat → List Byte
  | 0, _ => []
  | n + 1, v => BitVec.ofNat 8 v :: leBytes n (v / 256)

/-- Storage address of byte `o` of the scratchpad of a core (log 3). -/
def scratchKey (core o : Nat) : Nat := 2 ^ 42 + core * 2 ^ 21 + o

/-- Storage address of a byte of the slow tier, host memory included (log 3). -/
def slowKey (o : Nat) : Nat := 2 ^ 60 + o

/-- Storage address of byte `o` of BAR2 (log 3). -/
def bar2Key (o : Nat) : Nat := 2 ^ 59 + o

/-! ### Units -/

/-- A core by number. -/
def State.core (s : State) (c : Nat) : Core := dgetD s.cores c Core.reset

/-- Replace a core. -/
def State.setCore (s : State) (c : Nat) (v : Core) : State := { s with cores := dset s.cores c v }

/-- Change a core. -/
def State.modCore (s : State) (c : Nat) (f : Core → Core) : State := s.setCore c (f (s.core c))

/-- The island of a core, and its loom's number: one per quad (R10). -/
def islandOf (core : Nat) : Nat := core / 4

/-- The cluster of a core (R10). -/
def clusterOf (core : Nat) : Nat := core / 64

/-- The die of a cluster (R10). -/
def dieOf (cluster : Nat) : Nat := cluster / 2

/-- An island by number. -/
def State.island (s : State) (i : Nat) : Island := dgetD s.islands i Island.reset

/-- Island cycles of a core since reset, in thousandths (R28). -/
def State.cyc1000 (s : State) (core : Nat) : Nat := (s.island (islandOf core)).cyc1000

/-- The island of a core stops issue at clause boundaries: an operating-point change, or the thermal hold (R17, R409). -/
def State.issueStopped (s : State) (core : Nat) : Bool := !s.pk.tripped.isEmpty || (s.island (islandOf core)).change.isSome

/-- A loom by number. -/
def State.loom (s : State) (i : Nat) : Loom := dgetD s.looms i Loom.reset

/-- A slice by number. -/
def State.slice (s : State) (i : Nat) : Slice := dgetD s.slices i Slice.reset

/-- A cluster by number. -/
def State.cluster (s : State) (i : Nat) : Cluster := dgetD s.clusters i Cluster.reset

/-- A port by number. -/
def State.port (s : State) (i : Nat) : Port := dgetD s.ports i Port.reset

/-- A distributor by number. -/
def State.dist (s : State) (i : Nat) : Dist := dgetD s.dists i Dist.reset

/-- A fresh number for a new object (log 4). -/
def State.bump (s : State) : State := { s with nextId := s.nextId + 1 }

/-- Change a context. -/
def State.modCtx (s : State) (a : Nat) (f : Ctx → Ctx) : State := { s with ctxs := dmod s.ctxs a f }

/-- Change a kernel. -/
def State.modKernel (s : State) (k : Nat) (f : Kernel → Kernel) : State := { s with kernels := dmod s.kernels k f }

/-- Change a team. -/
def State.modTeam (s : State) (t : Nat) (f : Team → Team) : State := { s with teams := dmod s.teams t f }

/-- Replace a group. -/
def State.setGroup (s : State) (g : Nat) (v : Group) : State := { s with groups := dset s.groups g v }

/-- Change a group. -/
def State.modGroup (s : State) (g : Nat) (f : Group → Group) : State := { s with groups := dmod s.groups g f }

/-- The groups of a team, in order of their numbers. -/
def State.groupsOf (s : State) (t : Nat) : List (Nat × Group) := s.groups.filter fun e => e.2.team == t

/-- The operations in flight of a team. -/
def State.opsOf (s : State) (t : Nat) : List (Nat × Op) := s.flight.filter fun e => e.2.team == t

/-- A field of a kernel's launch record (R106). -/
def Kernel.field (k : Kernel) (hi lo : Nat) : Nat := (k.rcd.extractLsb' lo (hi - lo + 1)).toNat

/-! ### Lanes and registers (R23 to R27) -/

/-- The lanes of a mask, ascending. -/
def lanesOf (m : LaneMask) : List Nat := (List.range 32).filter fun l => m.getLsbD l

/-- The mask of a list of lanes. -/
def maskOf (ls : List Nat) : LaneMask := ls.foldl (fun m l => m ||| (1#32 <<< l)) 0

/-- The mask of the lanes for which a test holds. -/
def maskWhere (m : LaneMask) (p : Nat → Bool) : LaneMask := maskOf ((lanesOf m).filter p)

/-- V[r][l] (R23). -/
def Group.vreg (g : Group) (r l : Nat) : Word := sget 0 g.v (32 * r + l)

/-- A pair: the even register holds the low half (R25). -/
def Group.vreg2 (g : Group) (r l : Nat) : DWord := g.vreg (r + 1) l ++ g.vreg r l

/-- S[n] (R23). -/
def Group.sreg (g : Group) (n : Nat) : DWord := sget 0 g.s n

/-- Write V[r][l]. -/
def Group.setV (g : Group) (r l : Nat) (x : Word) : Group := { g with v := sset 0 g.v (32 * r + l) x }

/-- Write S[n]. -/
def Group.setS (g : Group) (n : Nat) (x : DWord) : Group := { g with s := sset 0 g.s n x }

/-- Write a vector register in the lanes of a mask (R27). -/
def Group.writeV (g : Group) (r : Nat) (m : LaneMask) (f : Nat → Word) : Group :=
  (lanesOf m).foldl (fun g l => g.setV r l (f l)) g

/-- Write a pair in the lanes of a mask (R25, R27). -/
def Group.writeV2 (g : Group) (r : Nat) (m : LaneMask) (f : Nat → DWord) : Group :=
  (lanesOf m).foldl (fun g l => (g.setV r l ((f l).extractLsb' 0 32)).setV (r + 1) l ((f l).extractLsb' 32 32)) g

/-- A 32-bit scalar result, zero-extended (R25). -/
def zext (w : Word) : DWord := 0#32 ++ w

/-- The granule budget of a group's role (R24, R106). -/
def Kernel.granules (k : Kernel) (role : Nat) : Nat := k.field (392 + 10 * role + 9) (392 + 10 * role + 6) + 1

/-! ### Splits -/

/-- A split slot of a group. -/
def Group.split (g : Group) (i : Nat) : Split := g.splits.getD i Split.empty

/-- Replace a split slot. -/
def Group.setSplit (g : Group) (i : Nat) (sp : Split) : Group := { g with splits := g.splits.set i sp }

/-- The split is READY. -/
def Split.ready (sp : Split) : Bool := sp.st == .ready

/-- The slot holds no split. -/
def Split.isFree (sp : Split) : Bool := sp.st == .free

/-- The split stands at a clause boundary: every word of its clause has issued. -/
def Split.atBoundary (sp : Split) : Bool := sp.words.length ≤ sp.nxt

/-- The split is BLOCKED. -/
def Split.isBlocked (sp : Split) : Bool :=
  match sp.st with
  | .blocked _ => true
  | _ => false

/-- Its slot becomes FREE. -/
def Split.freed (sp : Split) : Split := { Split.empty with past := sp.past }

/-- The split has issued the last word of its clause, whose header has SW (R32). -/
def Split.switches (sp : Split) : Bool := sp.sw && sp.atBoundary

/-- The lowest FREE split slot. -/
def Group.freeSlot (g : Group) : Option Nat := (List.range 4).find? fun i => (g.split i).isFree

/-- The split is held at a fence (R212): R135 does not count it as BLOCKED, and it stands inside its clause. -/
def Split.fenced (sp : Split) : Bool :=
  match sp.st with
  | .blocked (.fence ..) => true
  | _ => false

/-- The split is held at an instruction that R135 does not count as BLOCKED: a fence (R212), the write of a spill (R145) or a
record that waits for the token (R362). -/
def Split.isHeld (sp : Split) : Bool :=
  match sp.st with
  | .blocked (.fence ..) => true
  | .blocked (.spilling ..) => true
  | .blocked .spillWrite => true
  | .blocked (.held ..) => true
  | _ => false

/-- Any split is READY, the held ones among them. -/
def Group.anyReady (g : Group) : Bool := g.splits.any fun sp => sp.ready || sp.isHeld

/-- Every split slot is FREE and no lane is marked. -/
def Group.allFree (g : Group) : Bool := g.splits.all Split.isFree && g.marked == 0

/-- The group is in FAULT_WAIT: lanes are marked and no replay of them runs (R136, R143). -/
def Group.faultWait (g : Group) : Bool := g.marked != 0 && g.saved == 0

/-- No split of the group can move before something outside it happens: each stands at a boundary, or waits. A split BLOCKED or
PARKED inside its clause counts as one that stands; one held at a fence is READY, and goes on when the fence is over (R17, R157,
R378, log 51). -/
def Group.stopped (g : Group) : Bool :=
  g.st != .live || g.faultWait || g.splits.all fun sp => !sp.fenced && (sp.st != .ready || sp.atBoundary)

/-! ### The running split -/

/-- The group, split slot, split and team that issue a program instruction (R6: the executing split). -/
structure Run where
  gid : Nat
  g : Group
  slot : Nat
  sp : Split
  tid : Nat
  t : Team

/-- The group that issues, with its running split, when there is one. -/
def State.running (s : State) : Option Run :=
  match s.cur with
  | none => none
  | some gid =>
    match dget s.groups gid with
    | none => none
    | some g =>
      match g.run, dget s.teams g.team with
      | some i, some t => if (g.split i).ready then some ⟨gid, g, i, g.split i, g.team, t⟩ else none
      | _, _ => none

/-- Give a program instruction its running split. -/
def onRun (s : State) (k : Run → Out) : Out :=
  match s.running with
  | some r => k r
  | none => .refused .noRunningSplit

/-- The active mask (R6). -/
def Run.act (r : Run) : LaneMask := r.sp.mask

/-- Write the issuing group back. -/
def Run.put (r : Run) (s : State) (g : Group) : State := s.setGroup r.gid g

/-- The raw word being issued. -/
def Run.word (r : Run) : Word := r.sp.words.getD r.sp.pos 0

/-! ### Trace ring (R385, R386) -/

/-- A trace record (R386). -/
def Core.record (c : Core) (gts asid kind slot aux payload : Nat) : BitVec 128 :=
  BitVec.ofNat 16 asid ++ BitVec.ofNat 6 kind ++ BitVec.ofNat 6 slot ++ BitVec.ofNat 4 aux
    ++ BitVec.ofNat 32 (gts - c.epoch) ++ BitVec.ofNat 64 payload

/-- A record enters a ring, before the last n of it, over the oldest where it is full (R385). -/
def Core.enterTrace (c : Core) (n : Nat) (r : BitVec 128) : Core :=
  let k := c.trace.length - n
  { c with trace := (c.trace.take k ++ r :: c.trace.drop k).drop (c.trace.length + 1 - 2048) }

/-- A record that is of no issue slot enters a ring, last (R385, R386). -/
def Core.addTrace (c : Core) (gts asid kind slot aux payload : Nat) : Core :=
  { c.enterTrace 0 (c.record gts asid kind slot aux payload) with traceLate := 0 }

/-- A record of an issue slot enters a ring: of two events in one cycle, that of slot 0 comes first (R385). -/
def Core.addIssue (c : Core) (cyc : Nat) (odd : Bool) (r : BitVec 128) : Core :=
  let late := if c.traceCyc = cyc then c.traceLate else 0
  { c.enterTrace (if odd then 0 else late) r with traceCyc := cyc, traceLate := if odd then late + 1 else late }

/-- The ring's epoch: GTS rounded down to a multiple of 2^32 (R385). -/
def epochOf (gts : Nat) : Nat := gts / 2 ^ 32 * 2 ^ 32

/-- Where the epoch has changed, the ring first writes an EPOCH record (R385). -/
def Core.newEpoch (c : Core) (gts : Nat) : Core :=
  if c.epoch = epochOf gts then c else ({ c with epoch := epochOf gts } : Core).addTrace gts 0 0 61 0 gts

/-- Write a record into the trace ring of a core. -/
def State.trace (s : State) (core asid kind slot aux payload : Nat) : State :=
  s.modCore core fun c => (c.newEpoch s.pk.gts).addTrace s.pk.gts asid kind slot aux payload

/-- Write a record of a group, of the issue slot that its number names (R152, R385, R386). -/
def State.traceG (s : State) (g : Group) (kind aux payload : Nat) : State :=
  match dget s.teams g.team with
  | some t =>
    s.modCore g.core fun c =>
      let c1 := c.newEpoch s.pk.gts
      c1.addIssue (s.cyc1000 g.core / 1000) (g.grp % 2 == 1) (c1.record s.pk.gts t.asid kind g.slot aux payload)
  | none => s

/-- A SPLIT record (R387): event, mask, split slot and foster number. -/
def State.traceSplit (s : State) (g : Group) (event : Nat) (m : LaneMask) (slot foster : Nat) : State :=
  s.traceG g 2 event (m.toNat * 2 ^ 32 + slot * 2 ^ 30 + foster * 2 ^ 24)

/-! ### Taking a trap (R378 to R380, R123) -/

/-- The decode map number of a team's context (R64). -/
def State.mapNumOf (s : State) (t : Team) : Nat := ((dget s.ctxs t.asid).map Ctx.mapNum).getD 0

/-- A loom entry in the layout of R431. -/
def LoomEntry.image (e : LoomEntry) : BitVec 256 :=
  let word : BitVec 192 :=
    match e.work with
    | .mma ha hb f => ha ++ hb ++ f ++ (0 : BitVec 32)
    | .zero => 0
    | .drain hd scale fmt sat row0 col0 bk =>
      hd ++ (0 : Word) ++ scale.getD 0 ++ BitVec.ofNat 8 row0 ++ BitVec.ofNat 8 col0 ++ BitVec.ofNat 4 fmt
        ++ BitVec.ofBool sat ++ BitVec.ofBool scale.isSome ++ BitVec.ofBool bk.isSome ++ BitVec.ofNat 4 (bk.getD 0)
        ++ (0 : BitVec 5) ++ (0 : BitVec 32)
  let kind := match e.work with
    | .mma .. => 0
    | .zero => 1
    | .drain .. => 2
  let low : Nat := e.grp * 2 ^ 64 + e.stage * 2 ^ 14 + (if e.token then 2 ^ 11 else 0) + e.dc.getD 7 * 2 ^ 8
    + e.bank * 2 ^ 5 + e.name * 2 ^ 2 + kind
  (word ++ (0 : BitVec 64)) ||| BitVec.ofNat 256 low

/-- The loom queue entries of a team as a dump shows them (R431): those in the queue, then those that have left it. -/
def State.loomEntries (s : State) (tid : Nat) (t : Team) : List (BitVec 256) :=
  let es := (s.loom (islandOf t.core)).queue.filter fun e => e.team == tid
  (es.filter (fun e => e.stage == 0) ++ es.filter fun e => e.stage != 0).map LoomEntry.image

/-- The priority tokens held by groups of the teams for which a test holds are released (R155). -/
def State.dropTokensOf (s : State) (p : Nat → Bool) : State :=
  let keep (o : Option Nat) : Option Nat :=
    o.filter fun g => !(((dget s.groups g).map fun x => p x.team).getD false)
  { s with cores := s.cores.map fun e => (e.1, { e.2 with tok0 := keep e.2.tok0, tok1 := keep e.2.tok1 }) }

/-- The tokens held by groups of a team are released when it leaves RUNNING (R155). -/
def State.dropTokens (s : State) (tid : Nat) : State := s.dropTokensOf (· == tid)

/-- The teams for which a test holds, of those that have neither retired nor stopped nor ended, enter HALTING: their loom
queue entries are kept for a dump (R431), their tokens are released (R137, R138, R155), their batches cease to exist, and their
streams end, but for a tile in flight, which stops on its own (R303, R308). -/
def State.haltTeams (s : State) (p : Nat × Team → Bool) : State :=
  let hit (e : Nat × Team) : Bool := p e && e.2.st != .retired && e.2.st != .halting && e.2.st != .committing
  let of (tid : Nat) : Bool := s.teams.any fun e => e.1 == tid && hit e
  let s1 := s.dropTokensOf of
  { s1 with
    teams := s.teams.map fun e =>
      if hit e then (e.1, { e.2 with st := .halting, loomSnap := s.loomEntries e.1 e.2 }) else e
    groups := s.groups.map fun e => if of e.2.team then (e.1, { e.2 with batchOpen := none, batches := [] }) else e
    cores := s1.cores.map fun e =>
      (e.1, { e.2 with streams := e.2.streams.filter fun x => x.2.flying.isSome || !of x.2.team }) }

/-- A dump of a team is due, with its loom queue entries as they stood when it entered HALTING (R380, R431). -/
def State.dueDump (s : State) (tid : Nat) : State := s.modTeam tid fun t => { t with dumpDue := true }

/-- The team of a trap enters HALTING (R137, R378), also from COMMITTING, where a trap is taken on behalf of an ended group
before the commit point (R279, R305); every other team of its kernel that has not retired stops without a dump (R123). -/
def State.haltKernel (s : State) (tid : Nat) (kid : Nat) : State :=
  let s1 := (s.modTeam tid fun t => { t with st := if t.st == .halting then .halting else .running }).haltTeams fun e =>
    e.2.kernel == kid
  { s1.dueDump tid with kernels := dmod s1.kernels kid fun k => { k with trapped := true } }

/-- The context is DRAINING with CANCEL in force (R98). -/
def State.cancelling (s : State) (asid : Nat) : Bool :=
  ((dget s.ctxs asid).map fun c => c.cancel && c.st == .draining).getD false

/-- TAKING A TRAP: the record enters the team's trap records, the trace ring gets a TRAP record, and, if it is the
team's first, the team enters HALTING (R378). A team that stopped for a trap of another team of its kernel writes a dump of its
own (R123), unless its context is being cancelled by then (R391). No trap returns; a brk under a debugger is no trap (R389). -/
def State.takeTrap (s : State) (gid : Nat) (g : Group) (tr : TrapRecord) : State :=
  match dget s.teams g.team with
  | none => s
  | some t =>
    let tr' := { tr with gts := s.pk.gts, map := s.mapNumOf t, grp := g.grp }
    let s1 := s.traceG g 8 0
      (tr'.code * 2 ^ 56 + tr'.detail * 2 ^ 48 + tr'.lanes.toNat)
    let s2 := s1.modTeam g.team fun t => { t with traps := t.traps ++ [tr'] }
    let s3 := s2.modGroup gid fun g => { g with run := none }
    let struck := ((dget s.kernels t.kernel).map Kernel.trapped).getD false
    if t.st == .halting then (if struck && !s.cancelling t.asid then s3.dueDump g.team else s3) else s3.haltKernel g.team t.kernel

/-- The split that raised a precise trap stands at the clause that holds the instruction and issues nothing further. -/
def Split.trapped (sp : Split) : Split := { sp with pc := sp.hdr, words := [], pos := 0, nxt := 0 }

/-- A precise trap at issue (R378): it names the active lanes and the word being issued; the instruction has no
effect. -/
def Run.trap (r : Run) (s : State) (code detail : Nat) : Out :=
  let tr : TrapRecord := ⟨code, detail, r.g.grp, r.act, r.sp.hdr, r.sp.pos + 1, r.word, 0, 0, 0⟩
  let g := r.g.setSplit r.slot r.sp.trapped
  .next ((r.put s g).takeTrap r.gid g tr)

/-- Trap codes (R374). -/
def trapIllegalOpcode : Nat := 1
/-- RESERVED_FIELD (R374). -/
def trapReservedField : Nat := 2
/-- BAD_CLAUSE (R374). -/
def trapBadClause : Nat := 3
/-- FORMAT_DIVERGENCE (R374). -/
def trapFormatDivergence : Nat := 4
/-- TILE_BOUNDS (R374). -/
def trapTileBounds : Nat := 5
/-- BANK_NOT_OWNED (R374). -/
def trapBankNotOwned : Nat := 6
/-- NESTING_DEPTH (R374). -/
def trapNestingDepth : Nat := 7
/-- SELF_WAIT (R374). -/
def trapSelfWait : Nat := 8
/-- BARRIER_MISUSE (R374). -/
def trapBarrierMisuse : Nat := 9
/-- SOFTWARE (R374). -/
def trapSoftware : Nat := 10
/-- DEBUG_BREAK (R374). -/
def trapDebugBreak : Nat := 11
/-- LANE_FAULT (R374). -/
def trapLaneFault : Nat := 12

/-- The causes of an instruction's lanes as CAUSEV, one to a lane (R376, R379). -/
def causeVec (cs : List LaneCause) : Nat :=
  (List.range 32).foldl (fun a l => a + ((cs.find? fun c => c.lane == l).map LaneCause.cause).getD 0 % 16 * 2 ^ (4 * l)) 0

/-- A group takes its deferred trap once: its team is HALTING and has the record (R378, R391). -/
def State.faultTaken (s : State) (g : Group) : Bool :=
  ((dget s.teams g.team).map fun t =>
    t.st == .halting && t.traps.any fun r => r.code == 12 && r.grp == g.grp).getD false

/-- The deferred trap of a group with faulted lanes (R377): it names the first instruction that put lanes into the
set, and carries that instruction's causes (R376, R379). -/
def State.laneFault (s : State) (gid : Nat) (g : Group) : State :=
  match g.causes with
  | [] => s
  | c :: _ =>
    if s.faultTaken g then s else
    let same := g.causes.filter fun d => d.inst == c.inst
    let high := same.foldl (fun a d => max a d.cause) 0
    s.takeTrap gid g ⟨trapLaneFault, high, g.grp, maskOf (same.map LaneCause.lane), c.hdr, c.idx, c.word, 0, 0,
      causeVec same⟩

/-! ### Barrier counting (R277 to R279) -/

/-- NBAR of a team's kernel (R106). -/
def State.nbarOf (s : State) (t : Team) : Nat := ((dget s.kernels t.kernel).map fun k => k.field 372 368).getD 0

/-- A barrier register of a team (R274). -/
def Team.barrier (t : Team) (k : Nat) : Barrier := dgetD t.barriers k Barrier.unarmed

/-- Phase q reads as complete (R278). -/
def phaseDone (phase q : Nat) : Bool :=
  let d := (phase + 2 ^ 32 - q % 2 ^ 32) % 2 ^ 32
  1 ≤ d && d < 2 ^ 31

/-- The step that meets both counts completes the phase (R277). -/
def Barrier.settle (b : Barrier) : Barrier × Bool :=
  if b.armed && b.tarr == b.texp && b.bcred == b.bexp then
    let texp := b.texp - b.dropNow
    ({ b with phase := (b.phase + 1) % 2 ^ 32, tarr := 0, bcred := 0, arrived := [], dropNow := 0, texp := texp,
              armed := texp != 0 }, true)
  else (b, false)

/-- A split waiting on phases of a barrier that now read as complete turns READY (R277). -/
def Split.wakeBarrier (sp : Split) (k phase : Nat) : Split :=
  match sp.st with
  | .blocked (.bwaitp k' q) => if k' = k && phaseDone phase (q.toNat % 2 ^ 32) then { sp with st := .ready } else sp
  | _ => sp

/-- BARRIER_MISUSE detail: register in [7:4], sub-code in [3:0] (R379, R283). -/
def misuse (k sub : Nat) : Nat := 16 * k + sub

/-- Splits that wait on a later phase of a register that has become UNARMED: their groups take ORPHAN_WAIT (R283). -/
def State.orphans (s : State) (tid k : Nat) : State :=
  (s.groupsOf tid).foldl (fun s e =>
    e.2.splits.foldl (fun s sp =>
      match sp.st with
      | .blocked (.bwaitp k' _) =>
        if k' = k then
          s.takeTrap e.1 e.2 ⟨trapBarrierMisuse, misuse k 8, e.2.grp, sp.mask, sp.hdr, sp.pos + 1, sp.words.getD sp.pos 0,
            0, 0, 0⟩
        else s
      | _ => s) s) s

/-- Put back a barrier of a team after a step at it: completion, release of waiters, and the BARRIER trace record; it is the one last
touched (R277, R281). -/
def State.stepBarrier (s : State) (tid : Nat) (k : Nat) (b : Barrier) : State :=
  match dget s.teams tid with
  | none => s
  | some t =>
    let (b', fin) := b.settle
    let s1 := (s.modTeam tid fun t => { t with barriers := dset t.barriers k { b' with touched := s.nextId } }).bump
    if fin then
      let s2 := { s1 with
        groups := s1.groups.map fun (e : Nat × Group) =>
          if e.2.team = tid then (e.1, { e.2 with splits := e.2.splits.map fun (sp : Split) => sp.wakeBarrier k b'.phase })
          else e }
      let s3 := s2.trace t.core t.asid 5 61 0 (k * 2 ^ 32 + b.phase)
      if b'.texp = 0 then s3.orphans tid k else s3
    else s1

/-- An asynchronous credit to a barrier (R279): applied, or a trap for the issuing group's next clause boundary. If that
group has ENDED the team takes it at once on its behalf. -/
def State.creditAsync (s : State) (tid gid : Nat) (k bytes : Nat) (hdr idx : Nat) (word : Word) (seq : Nat) : State :=
  match dget s.teams tid with
  | none => s
  | some t =>
    if t.st == .halting || t.st == .retired || t.st == .wounded then s
    else
      let b := t.barrier k
      let bad := if !b.armed then 1 else if b.bcred + bytes > b.bexp then 5 else 0
      if bad = 0 then s.stepBarrier tid k { b with bcred := b.bcred + bytes }
      else
        match dget s.groups gid with
        | none => s
        | some g =>
          let tr : TrapRecord := ⟨trapBarrierMisuse, misuse k bad, g.grp, 0, hdr, idx, word, 0, 0, seq⟩
          if g.st == .ended || t.st != .running then s.takeTrap gid g tr
          else s.modGroup gid fun g => { g with asyncTraps := g.asyncTraps ++ [tr] }

/-! ### Porter batches (R303, R304) -/

/-- A split waiting in BWAIT turns READY when no batch it covers remains (R304). -/
def Group.covered (g : Group) (n : Nat) : Bool :=
  let n' := if (g.batchL + 2 ^ 16 - n) % 2 ^ 16 < 2 ^ 15 then n else g.batchL
  g.batches.all fun b => 2 ^ 15 ≤ (n' + 2 ^ 16 - b.seq) % 2 ^ 16

/-- Splits waiting in BWAIT whose batches are over turn READY (R304). -/
def Group.wakeBatches (g : Group) : Group :=
  { g with splits := g.splits.map fun sp =>
      match sp.st with
      | .blocked (.bwait n) => if g.covered n then { sp with st := .ready } else sp
      | _ => sp }

/-- Sealed batches whose commands are all over leave; their credits are applied unless a command stopped (R303). -/
def State.finishBatches (s : State) (gid : Nat) : State :=
  match dget s.groups gid with
  | none => s
  | some g =>
    let ended := g.batches.filter fun b => b.cmds.isEmpty
    let s1 := s.setGroup gid { g with batches := g.batches.filter fun b => !b.cmds.isEmpty }
    let s2 := ended.foldl (fun s b =>
      if b.bad then s
      else b.credits.foldl (fun s c => s.creditAsync g.team gid c.1 c.2 b.hdr b.idx b.word b.seq) s) s1
    s2.modGroup gid Group.wakeBatches

/-- A command of a group is over: it leaves its batch, which is spoilt when it stopped on a fatal cause (R303, R305). -/
def Group.commandOver (g : Group) (cmd : Nat) (bad : Bool) : Group :=
  let f (b : Batch) : Batch :=
    if b.cmds.contains cmd then { b with cmds := b.cmds.filter (· != cmd), bad := b.bad || bad } else b
  { g with batches := g.batches.map f, batchOpen := g.batchOpen.map f }

/-- Seal the open batch under the next sequence number, or just count one (R303). -/
def Group.sealBatch (g : Group) : Group :=
  let l := (g.batchL + 1) % 2 ^ 16
  match g.batchOpen with
  | none => { g with batchL := l }
  | some b => { g with batchL := l, batchOpen := none, batches := g.batches ++ [{ b with seq := l }] }

/-! ### What follows when splits stop (R136, R137, R147, R377) -/

/-- The priority token of an issue slot is released when its holder leaves (R155). -/
def State.releaseToken (s : State) (core gid : Nat) : State :=
  s.modCore core fun c =>
    { c with tok0 := if c.tok0 == some gid then none else c.tok0, tok1 := if c.tok1 == some gid then none else c.tok1 }

/-- Some plaiter bin holds threads of the team, on whichever core they spilled (R137, R150). -/
def State.binsHold (s : State) (tid : Nat) : Bool := s.cores.any fun c => c.2.bins.any fun e => e.2.team == tid

/-- A bin closes, unless it has closed already (R147). -/
def Bin.close (b : Bin) (cyc : Nat) : Bin := { b with closed := some (b.closed.getD cyc) }

/-- No group of the team has a READY split, so its open bins close (R147). -/
def State.closeIdleBins (s : State) (tid : Nat) : State :=
  match dget s.teams tid with
  | none => s
  | some t =>
    if t.st != .running || ((s.groupsOf tid).any fun e => e.2.st == .live && e.2.anyReady) then s
    else
      { s with cores := s.cores.map fun c =>
          (c.1, { c.2 with bins := c.2.bins.map fun e => if e.2.team == tid then (e.1, e.2.close (s.cyc1000 c.1)) else e }) }

/-- The last group of a VERSIONED team has ENDED and no bin holds its threads: it enters COMMITTING, unless it holds
the token, whose version has committed already (R137, R363, R364). -/
def State.settleTeam (s : State) (tid : Nat) : State :=
  match dget s.teams tid with
  | none => s
  | some t =>
    if t.st == .running && t.versioned && !t.ver.irrevocable && !s.binsHold tid
        && ((s.groupsOf tid).all fun e => e.2.st == .ended) then
      s.modTeam tid fun t => { t with st := .committing, ver := { t.ver with st := .committing } }
    else s

/-- A field of 512 bits. -/
def lfield (r : BitVec 512) (hi lo : Nat) : Nat := (r.extractLsb' lo (hi - lo + 1)).toNat

/-- Slots of a ring (R300). -/
def ringSlots (r : BitVec 512) : Nat := lfield r 3 0 + 1
/-- Barrier of slot 0 (R300). -/
def ringBarrier (r : BitVec 512) : Nat := lfield r 7 4
/-- NT of a ring: its number of tiles, or 0 (R300). -/
def ringTiles (r : BitVec 512) : Nat := lfield r 255 224

/-- The stream has a tile to come after those that are over (R300, R301). -/
def Stream.more (st : Stream) : Bool :=
  (ringTiles st.ring == 0 || decide (st.tile < ringTiles st.ring)) && (st.last.map fun n => decide (st.tile ≤ n)).getD true

/-- The barrier of the tile that a stream has come to, where its slot condition is met. A slot whose consumers have all dropped out
meets it as an UNARMED register, which the tile's credit then meets (R279, R300). -/
def Stream.slotMet (st : Stream) (t : Team) : Option Nat :=
  let ns := ringSlots st.ring
  let k := st.tile % ns
  let bk := ringBarrier st.ring + k
  let b := t.barrier bk
  if st.more && b.tarr == b.texp && b.phase == (st.phases.getD k 0 + st.tile / ns) % 2 ^ 32 then some bk else none

/-- The barrier of the next tile of a stream whose slot condition is met: the tile counts as in flight (R300, R308). -/
def Stream.due (st : Stream) (t : Team) : Option Nat := if st.flying.isNone then st.slotMet t else none

/-- The barrier that the next tile of a stream will credit with no arrival any more: that of a tile that is due, or that of the tile
after the one that flies (R281, R290). -/
def Stream.owed (st : Stream) (t : Team) : Option Nat :=
  if st.flying.isNone then st.slotMet t else ({ st with tile := st.tile + 1 } : Stream).slotMet t

/-- A stream has a tile in flight, or one that is due (R301, R308). -/
def State.tileOut (s : State) (st : Stream) : Bool :=
  st.flying.isSome || (((dget s.teams st.team).bind st.due).isSome)

/-- The streams of a group that ENDS: one with a tile in flight ends with that tile, the others are over (R300, R308). -/
def State.endStreams (s : State) (core gid : Nat) : State :=
  let c := s.core core
  let mine := c.streams.filter fun e => e.2.group == gid
  let ended := mine.filter fun e => !s.tileOut e.2
  let rest := (c.streams.filter fun e => !(ended.any fun o => o.1 == e.1)).map fun e =>
    if e.2.group == gid then (e.1, { e.2 with last := some e.2.tile }) else e
  (s.setCore core { c with streams := rest }).modGroup gid fun g =>
    ended.foldl (fun g e => g.commandOver e.2.cmd false) g

/-- The trap of a porter command that stopped, where its group has ENDED: the team takes it on the group's behalf (R305). -/
def State.stopTrap (s : State) (gid : Nat) (g : Group) (m : LaneMask) (c : LaneCause) : State :=
  s.takeTrap gid g ⟨trapLaneFault, c.cause, g.grp, m, c.hdr, c.idx, c.word, 0, 0,
    causeVec ((lanesOf m).map fun l => { c with lane := l })⟩

/-- The traps that a group which has ENDED still had to take: its team takes them on its behalf (R279, R305). -/
def State.takeStops (s : State) (gid : Nat) (g : Group) : State :=
  let s1 := s.modGroup gid fun g => { g with asyncTraps := [], pendStops := [] }
  let s2 := g.asyncTraps.foldl (fun s tr => s.takeTrap gid g tr) s1
  g.pendStops.foldl (fun s p => s.stopTrap gid g p.1 p.2) s2

/-- The group ENDS (R136): its streams stop as at pstop, its open batch is sealed, its token is released, and its team takes the
traps it still had to take. -/
def State.endGroup (s : State) (gid : Nat) (g : Group) : State :=
  let g1 := if g.batchOpen.isSome then g.sealBatch else g
  let s1 := s.setGroup gid { g1 with st := .ended, run := none, splits := g1.splits.map fun _ => Split.empty }
  let s2 := s1.endStreams g.core gid
  ((s2.releaseToken g.core gid).finishBatches gid).takeStops gid g

/-- After any change to a group's splits: the deferred lane trap (R377), which a cause that comes late brings on a group that
has ENDED or is stood down too, the end of the group (R136) and of the team (R137), and the closing of bins (R147). -/
def State.settle (s : State) (gid : Nat) : State :=
  match dget s.groups gid with
  | none => s
  | some g =>
    let wounded := ((dget s.teams g.team).map fun t => t.st == .wounded).getD true
    if g.st != .live then (if g.faulted != 0 && !wounded then s.laneFault gid g else s)
    else
      let running := match g.run with
        | some i => (g.split i).ready
        | none => false
      let s1 := if running then s else s.modGroup gid fun g => { g with run := none }
      if (g.anyReady && !g.faultWait) || wounded then s1
      else if g.faulted != 0 then
        let s2 := s1.laneFault gid g
        if g.allFree then (s2.releaseToken g.core gid).modGroup gid fun g => { g with st := .ended, run := none } else s2
      else
        let s2 := if g.allFree then s1.endGroup gid { g with run := none } else s1
        (s2.closeIdleBins g.team).settleTeam g.team

/-- End the meaning of an instruction that changed its group's splits. -/
def Run.finish (r : Run) (s : State) (g : Group) : Out := .next ((r.put s g).settle r.gid)

/-- Block the running split at its instruction (R135). -/
def Run.block (r : Run) (s : State) (g : Group) (b : Block) : Out :=
  r.finish s (g.setSplit r.slot { r.sp with st := .blocked b })

/-- A list of bytes made n long. -/
def fit (n : Nat) (bs : List Byte) : List Byte := (List.range n).map fun i => bs.getD i 0

/-- The count of thousandths at which the island cycle after a count's begins. -/
def nextCycle (cyc1000 : Nat) : Nat := (cyc1000 / 1000 + 1) * 1000

/-- The instruction cannot issue now (R34, R152, R291): the split stays READY before it, its issue is not counted, its group is not
the one last issued, and it is not eligible in this cycle. -/
def Run.stall (r : Run) (s : State) : Out :=
  let g := { r.g.setSplit r.slot { r.sp with nxt := r.sp.pos } with elig := none, idleTo := nextCycle (s.cyc1000 r.g.core) }
  let s1 := r.put s g
  .next { s1.modCore r.g.core fun c =>
    { c with issued := dmod c.issued r.t.asid fun n => n - 1,
             last0 := if r.g.grp % 2 = 0 then c.lastOld else c.last0,
             last1 := if r.g.grp % 2 = 0 then c.last1 else c.lastOld } with cur := none }

/-! ### Dependency counters (R34) -/

/-- Counter k of a group. -/
def Group.cnt (g : Group) (k : Nat) : Nat := g.dc.getD k 0

/-- Add one to a counter. -/
def Group.incCnt (g : Group) (k : Nat) : Group := { g with dc := g.dc.set k (g.cnt k + 1) }

/-- Every counter a WAIT mask names is zero (R31). -/
def Group.waitMet (g : Group) (m : BitVec 6) : Bool := (List.range 6).all fun k => !m.getLsbD k || g.cnt k == 0

/-- Splits blocked on counters whose condition is met turn READY (R135). -/
def Group.wakeCounters (g : Group) : Group :=
  { g with splits := g.splits.map fun sp =>
      match sp.st with
      | .blocked (.header m) => if g.waitMet m then { sp with st := .ready } else sp
      | .blocked (.dwait k n) => if g.cnt k ≤ n then { sp with st := .ready } else sp
      | _ => sp }

/-- Take one from a counter. -/
def Group.decCnt (g : Group) (k : Nat) : Group := ({ g with dc := g.dc.set k (g.cnt k - 1) }).wakeCounters

/-- The counter of a field, where 7 names none (R36). -/
def dcOf (dc : DcField) : Option Nat := if dc.toNat ≤ 5 then some dc.toNat else none

/-- A counter that stands at 63 stalls the split (R34). -/
def Run.full (r : Run) (dc : Option Nat) : Bool := (dc.map fun k => r.g.cnt k == 63).getD false

/-- Drop the lines of a core's L1 for which a test holds (R196). -/
def State.dropL1 (s : State) (core : Nat) (p : L1Line → Bool) : State :=
  s.modCore core fun c => { c with l1 := c.l1.filter fun l => !p l }

/-- A fence stops waiting for an operation. -/
def Split.fenceStep (op : Nat) (sp : Split) : Split :=
  match sp.st with
  | .blocked (.fence o sc ops) => { sp with st := .blocked (.fence o sc (ops.filter (· != op))) }
  | _ => sp

/-- A fence has nothing left to wait for. -/
def Split.fenceOver (sp : Split) : Bool :=
  match sp.st with
  | .blocked (.fence _ _ ops) => ops.isEmpty
  | _ => false

/-- A line lies in the space of a context: tagged by its ASID or by a shared ASID attached to it (R252). -/
def State.ownLine (s : State) (asid : Nat) (l : L1Line) : Bool :=
  l.asid == asid || ((dget s.ctxs asid).map fun c => c.attach.any fun a => a.shared == l.asid).getD false

/-- An acquire at cluster scope or wider invalidates the L1 lines of the ASID on the core (R210). -/
def State.acquireL1 (s : State) (core asid ord scope : Nat) : State :=
  if ord % 2 == 1 && 3 ≤ scope then s.dropL1 core (s.ownLine asid) else s

/-- The fence a split waits in takes its acquire side (R212). -/
def Split.fenceAcquire (sp : Split) (s : State) (core asid : Nat) : State :=
  match sp.st with
  | .blocked (.fence o sc _) => s.acquireL1 core asid o sc
  | _ => s

/-- A split waits in a fence for an operation. -/
def Split.fencedBy (op : Nat) (sp : Split) : Bool :=
  match sp.st with
  | .blocked (.fence _ _ ops) => ops.contains op
  | _ => false

/-- An operation is performed: the fences of a group that waited for it alone are over (R212). -/
def State.wakeFencesIn (s : State) (op gid : Nat) : State :=
  match dget s.groups gid with
  | none => s
  | some g =>
    let sps := g.splits.map (Split.fenceStep op)
    let ended := sps.filter Split.fenceOver
    let asid := ((dget s.teams g.team).map Team.asid).getD 0
    let s1 := ended.foldl (fun s sp => sp.fenceAcquire s g.core asid) s
    s1.setGroup gid { g with splits := sps.map fun sp => if sp.fenceOver then { sp with st := .ready } else sp }

/-- An operation is performed: the fences of every group that waited for it alone are over (R212). -/
def State.wakeFences (s : State) (op : Nat) : State :=
  ((s.groups.filter fun e => e.2.splits.any (Split.fencedBy op)).map Prod.fst).foldl (fun s g => s.wakeFencesIn op g) s

/-! ### Operations in flight (R34, R35) -/

/-- Issue an operation: it gets a number, its counter goes up, and it follows its split's earlier operations. -/
def Run.issueOp (r : Run) (s : State) (g : Group) (fam : Family) (dc : Option Nat) (waits : List Nat) (work : Work)
    (vout : List LaneOut) (sout : List (Nat × DWord)) : State :=
  let id := s.nextId
  let past := r.sp.past.filter fun i => (dget s.flight i).isSome
  let op : Op := ⟨r.gid, r.tid, r.t.core, fam, dc, r.sp.hdr, r.sp.pos + 1, r.word, r.slot, r.act, past, waits, work, vout,
    sout, [], none, none, s.cyc1000 r.t.core⟩
  let g1 := match dc with
    | some k => g.incCnt k
    | none => g
  let g2 := g1.setSplit r.slot { g1.split r.slot with past := past ++ [id] }
  r.put { s.bump with flight := s.flight ++ [(id, op)] } g2

/-- Issue an operation whose results are known (SFU, cross-lane and the short reads), or stall at a full counter. -/
def Run.later (r : Run) (s : State) (fam : Family) (dc : DcField) (vout : List LaneOut) (sout : List (Nat × DWord)) :
    Out :=
  if r.full (dcOf dc) then r.stall s
  else .next (r.issueOp s r.g fam (dcOf dc) [] .none vout sout)

/-- Write one lane's result, unless the lane has faulted since (R144). -/
def Group.deliver (g : Group) (o : LaneOut) : Group :=
  if g.faulted.getLsbD o.lane then g
  else (o.vals.zipIdx).foldl (fun g (x, i) => g.setV (o.reg + i) o.lane x) g

/-- The operation is over: scalar results are written, the counter goes down, waiting fences are told (R34). -/
def State.retireOp (s : State) (id : Nat) (op : Op) : State :=
  let s1 := { s with flight := ddel s.flight id }
  (s1.modGroup op.group fun g =>
    let g1 := op.sout.foldl (fun g (n, x) => g.setS n x) g
    match op.dc with
      | some k => g1.decCnt k
      | none => g1).wakeFences id |>.settle op.group

/-- Deliver the results of the lanes of a mask; when none is left, the operation is over (R35). -/
def State.deliverLanes (s : State) (id : Nat) (op : Op) (m : LaneMask) : State :=
  let now := op.vout.filter fun o => m.getLsbD o.lane
  let rest := op.vout.filter fun o => !m.getLsbD o.lane
  let s1 := s.modGroup op.group fun g => now.foldl Group.deliver g
  let op1 := { op with vout := rest }
  if rest.isEmpty then s1.retireOp id op1 else { s1 with flight := dset s1.flight id op1 }

/-- An operation of a family without remaining work, by number. -/
def State.readyOp (s : State) (id : Nat) (fam : Family) : Option Op :=
  match dget s.flight id with
  | some op => if op.fam == fam && op.work == .none then some op else none
  | none => none

/-! ### Free values (log 5) -/

/-- Use the counter of free values once. -/
def State.useFree (s : State) : State := { s with freeCtr := s.freeCtr + 1 }

end Sys2Proof.Machine
end

