-- ==== Sys2Proof/Machine/Flags.lean ====
section
/-!
DEFINITION. Integer results, conditions and carries of the vector and scalar ALU (09_compute_instructions.md R165 to
R173, 03_opcode_map.md R49). The S24 has no flag register: a comparison, a carry and a borrow are lane masks or scalars.
-/
namespace Sys2Proof.Machine

/-- The high half of the product of two `w`-bit numbers, signed (R165). -/
def mulHiS {w : Nat} (a b : BitVec w) : BitVec w := BitVec.ofInt w (a.toInt * b.toInt / (2 ^ w : Nat))

/-- The high half of the product of two `w`-bit numbers, unsigned (R165). -/
def mulHiU {w : Nat} (a b : BitVec w) : BitVec w := BitVec.ofNat w (a.toNat * b.toNat / 2 ^ w)

/-- The smaller or larger of two numbers, compared unsigned when `u` is 1 (R165). -/
def minMax {w : Nat} (u : Bit) (larger : Bool) (a b : BitVec w) : BitVec w :=
  let aLess := if u.toNat == 1 then decide (a.toNat < b.toNat) else decide (a.toInt < b.toInt)
  if aLess == larger then b else a

/-- |b| mod 2^w (R165). -/
def absW {w : Nat} (b : BitVec w) : BitVec w := if b.toInt < 0 then 0 - b else b

/-- Shift counts are taken modulo the width (R165, R171). -/
def shCount {w : Nat} (b : BitVec w) : Nat := b.toNat % w

/-- Rotate left by the count (R165). -/
def rotW {w : Nat} (a b : BitVec w) : BitVec w := (a <<< shCount b) ||| (a >>> (w - shCount b))

/-- Number of one bits (R165). -/
def popCount {w : Nat} (b : BitVec w) : Nat := (List.range w).foldl (fun n i => if b.getLsbD i then n + 1 else n) 0

/-- Number of leading zero bits: the first index from the top that holds a one (R165). -/
def clzW {w : Nat} (b : BitVec w) : Nat := ((List.range w).find? fun i => b.getLsbD (w - 1 - i)).getD w

/-- Bits taken by a bit-field instruction: position b[7:0], length b[15:8] (R166). -/
def fieldLen {w : Nat} (b : BitVec w) : Nat :=
  let pos := b.toNat % 256
  let len := b.toNat / 256 % 256
  if w ≤ pos then 0 else min len (w - pos)

/-- Extract a field, sign-extended when `sg` is 1 (R166). -/
def bfe {w : Nat} (sg : Bit) (a b : BitVec w) : BitVec w :=
  let n := fieldLen b
  let f := a.toNat / 2 ^ (b.toNat % 256) % 2 ^ n
  if n = 0 then 0
  else if sg.toNat == 1 && f.testBit (n - 1) then BitVec.ofInt w ((f : Int) - (2 ^ n : Nat))
  else BitVec.ofNat w f

/-- Insert the low bits of a into d at the position (R166). -/
def bfi {w : Nat} (a b d : BitVec w) : BitVec w :=
  let n := fieldLen b
  let pos := b.toNat % 256
  let m : BitVec w := BitVec.ofNat w ((2 ^ n - 1) * 2 ^ pos)
  if n = 0 then d else (d &&& ~~~m) ||| (BitVec.ofNat w (a.toNat % 2 ^ n * 2 ^ pos))

/-- An integer condition by its code (R49). -/
def intCond {w : Nat} (c : BitVec 4) (a b : BitVec w) : Bool :=
  match c.toNat with
  | 0 => a == b
  | 1 => a != b
  | 2 => decide (a.toInt < b.toInt)
  | 3 => decide (a.toInt ≤ b.toInt)
  | 4 => decide (a.toInt > b.toInt)
  | 5 => decide (a.toInt ≥ b.toInt)
  | 6 => decide (a.toNat < b.toNat)
  | 7 => decide (a.toNat ≤ b.toNat)
  | 8 => decide (a.toNat > b.toNat)
  | _ => decide (a.toNat ≥ b.toNat)

/-- Sum with carry in, and whether it carries out (R169, R172). -/
def addCarry {w : Nat} (a b : BitVec w) (ci : Bool) : BitVec w × Bool :=
  let t := a.toNat + b.toNat + ci.toNat
  (BitVec.ofNat w t, decide (2 ^ w ≤ t))

/-- Difference with borrow in, and whether it borrows (R169, R172). -/
def subBorrow {w : Nat} (a b : BitVec w) (ci : Bool) : BitVec w × Bool :=
  (a - b - BitVec.ofNat w ci.toNat, decide (a.toNat < b.toNat + ci.toNat))

/-- A branch condition on a scalar (R218): eqz, nez, ltz, gez. -/
def braCond (c : BitVec 2) (x : DWord) : Bool :=
  match c.toNat with
  | 0 => x == 0
  | 1 => x != 0
  | 2 => decide (x.toInt < 0)
  | _ => decide (0 ≤ x.toInt)

end Sys2Proof.Machine
end

