-- ==== Sys2Proof/Machine/Float.lean ====
section
/-!
DEFINITION. Number formats and exact arithmetic (04_numbers.md R66 to R75): a value is exact, and one function rounds
it into a format.
-/
namespace Sys2Proof.Machine

/-- A floating format (R66, R67): fraction bits, exponent bits, bias, the largest finite field, an infinity or not, and
the canonical NaN. -/
structure Fmt where
  frac : Nat
  ebits : Nat
  bias : Nat
  maxField : Nat
  inf : Option Nat
  nan : Nat
  deriving DecidableEq, Repr

/-- FP32. -/
def f32 : Fmt := ⟨23, 8, 127, 0x7F7FFFFF, some 0x7F800000, 0x7FC00000⟩
/-- FP16. -/
def f16 : Fmt := ⟨10, 5, 15, 0x7BFF, some 0x7C00, 0x7E00⟩
/-- BF16. -/
def bf16 : Fmt := ⟨7, 8, 127, 0x7F7F, some 0x7F80, 0x7FC0⟩
/-- FP8 E4M3: no infinity; only 0x7F and 0xFF are NaNs. -/
def e4m3 : Fmt := ⟨3, 4, 7, 0x7E, none, 0x7F⟩
/-- FP8 E5M2. -/
def e5m2 : Fmt := ⟨2, 5, 15, 0x7B, some 0x7C, 0x7E⟩

/-- Width of a format in bits. -/
def Fmt.width (f : Fmt) : Nat := 1 + f.ebits + f.frac

/-- An exact value: NaN, an infinity, or ±m·2^e; m = 0 is a signed zero. -/
inductive FVal where
  | nan
  | inf (neg : Bool)
  | fin (neg : Bool) (m : Nat) (e : Int)
  deriving DecidableEq, Repr

/-- The exponent of the least subnormal. -/
def Fmt.qmin (f : Fmt) : Int := 1 - f.bias - f.frac

/-- The value of an encoding (R66, R67). -/
def Fmt.value (f : Fmt) (bits : Nat) : FVal :=
  let field := bits % 2 ^ (f.ebits + f.frac)
  let neg := bits.testBit (f.ebits + f.frac)
  let ex := field / 2 ^ f.frac
  let fr := field % 2 ^ f.frac
  if f.maxField < field then
    if f.inf = some field then .inf neg else .nan
  else if ex = 0 then .fin neg fr f.qmin
  else .fin neg (2 ^ f.frac + fr) (f.qmin + (ex - 1 : Nat))

/-- The rounding modes (R49, R70). -/
inductive RMode where
  | rne
  | rtz
  | rdn
  | rup
  deriving DecidableEq, Repr

/-- The mode of a two-bit code (R49). -/
def rmode (r : BitVec 2) : RMode :=
  match r.toNat with
  | 0 => .rne
  | 1 => .rtz
  | 2 => .rdn
  | _ => .rup

/-- m · 2^s rounded to an integer in the mode (R70). -/
def roundInt (mode : RMode) (neg : Bool) (m : Nat) (s : Int) : Nat :=
  if 0 ≤ s then m * 2 ^ s.toNat
  else
    let d := 2 ^ (-s).toNat
    let q := m / d
    let r := m % d
    let up :=
      match mode with
      | .rne => 2 * r > d || (2 * r == d && q % 2 == 1)
      | .rtz => false
      | .rdn => neg && r != 0
      | .rup => !neg && r != 0
    if up then q + 1 else q

/-- The sign bit of a format. -/
def Fmt.signBit (f : Fmt) (neg : Bool) : Nat := if neg then 2 ^ (f.ebits + f.frac) else 0

/-- An overflowing result (R70, R71). -/
def Fmt.overflow (f : Fmt) (mode : RMode) (sat neg : Bool) : Nat :=
  let toMax := sat || mode == .rtz || (mode == .rdn && !neg) || (mode == .rup && neg)
  if toMax then f.signBit neg + f.maxField
  else
    match f.inf with
    | some i => f.signBit neg + i
    | none => f.nan

/-- Round an exact value into a format (R69 to R71, R73). -/
def Fmt.round (f : Fmt) (mode : RMode) (sat : Bool) (v : FVal) : Nat :=
  match v with
  | .nan => f.nan
  | .inf neg =>
    if sat then f.signBit neg + f.maxField
    else
      match f.inf with
      | some i => f.signBit neg + i
      | none => f.nan
  | .fin neg m e =>
    if m = 0 then f.signBit neg
    else
      let q := max ((Nat.log2 m : Int) + e - f.frac) f.qmin
      let field := (q - f.qmin).toNat * 2 ^ f.frac + roundInt mode neg m (e - q)
      if f.maxField < field then f.overflow mode sat neg else f.signBit neg + field

/-- A non-zero subnormal field becomes a zero of its sign under FTZ (R72). -/
def Fmt.flush (f : Fmt) (ftz : Bool) (bits : Nat) : Nat :=
  let field := bits % 2 ^ (f.ebits + f.frac)
  if ftz && field < 2 ^ f.frac then bits - field else bits

/-- FTZ applies to FP32 and FP16 only (R72). -/
def Fmt.ftzHere (f : Fmt) (ftz : Bool) : Bool := ftz && (f == f32 || f == f16)

/-- The operand of a floating instruction (R72). -/
def Fmt.operand (f : Fmt) (ftz : Bool) (bits : Nat) : FVal := f.value (f.flush (f.ftzHere ftz) bits)

/-- The result of a floating instruction (R69 to R74). -/
def Fmt.result (f : Fmt) (mode : RMode) (ftz : Bool) (v : FVal) : Nat :=
  f.flush (f.ftzHere ftz) (f.round mode false v)

/-- Sign of an exact zero sum (R74): kept when both zeros have it, else +0, or -0 in RDN. -/
def zeroSign (mode : RMode) (n1 n2 : Bool) : Bool := if n1 == n2 then n1 else mode == .rdn

/-- The exact sum (R69, R73, R74). -/
def FVal.add (mode : RMode) (x y : FVal) : FVal :=
  match x, y with
  | .nan, _ => .nan
  | _, .nan => .nan
  | .inf a, .inf b => if a == b then .inf a else .nan
  | .inf a, .fin .. => .inf a
  | .fin .., .inf b => .inf b
  | .fin n1 m1 e1, .fin n2 m2 e2 =>
    let e := min e1 e2
    let i1 : Int := (m1 * 2 ^ (e1 - e).toNat : Nat)
    let i2 : Int := (m2 * 2 ^ (e2 - e).toNat : Nat)
    let t := (if n1 then -i1 else i1) + (if n2 then -i2 else i2)
    if t = 0 then .fin (if m1 = 0 && m2 = 0 then zeroSign mode n1 n2 else mode == .rdn) 0 e
    else .fin (decide (t < 0)) t.natAbs e

/-- The value with its sign turned. -/
def FVal.neg : FVal → FVal
  | .nan => .nan
  | .inf a => .inf !a
  | .fin n m e => .fin (!n) m e

/-- The exact product (R69, R73). -/
def FVal.mul (x y : FVal) : FVal :=
  match x, y with
  | .nan, _ => .nan
  | _, .nan => .nan
  | .inf a, .inf b => .inf (a != b)
  | .inf a, .fin n m _ => if m = 0 then .nan else .inf (a != n)
  | .fin n m _, .inf b => if m = 0 then .nan else .inf (n != b)
  | .fin n1 m1 e1, .fin n2 m2 e2 => .fin (n1 != n2) (m1 * m2) (e1 + e2)

/-- The exact fused product and sum (R174). -/
def FVal.fma (mode : RMode) (x y z : FVal) : FVal :=
  match x.mul y, z with
  | .nan, _ => .nan
  | p, z => p.add mode z

/-- A finite value is a zero. -/
def FVal.isZero : FVal → Bool
  | .fin _ m _ => m == 0
  | _ => false

/-- x < y, both zeros equal, false with a NaN (R176). -/
def FVal.lt (x y : FVal) : Bool :=
  match x, y with
  | .nan, _ => false
  | _, .nan => false
  | .inf a, .inf b => a && !b
  | .inf a, .fin .. => a
  | .fin .., .inf b => !b
  | .fin n1 m1 e1, .fin n2 m2 e2 =>
    let e := min e1 e2
    let i1 : Int := (m1 * 2 ^ (e1 - e).toNat : Nat)
    let i2 : Int := (m2 * 2 ^ (e2 - e).toNat : Nat)
    decide ((if n1 then -i1 else i1) < (if n2 then -i2 else i2))

/-- The value is a NaN. -/
def FVal.isNan : FVal → Bool
  | .nan => true
  | _ => false

/-- A floating condition by its code (R49, R176). -/
def FVal.cond (c : BitVec 3) (x y : FVal) : Bool :=
  let un := x.isNan || y.isNan
  match c.toNat with
  | 0 => !un && !x.lt y && !y.lt x
  | 1 => un || x.lt y || y.lt x
  | 2 => x.lt y
  | 3 => !un && !y.lt x
  | 4 => y.lt x
  | 5 => !un && !x.lt y
  | 6 => un
  | _ => !un

/-! ### FP32 operations on words -/

/-- Two-operand FP32 arithmetic (R174). -/
def fp2 (op : RMode → FVal → FVal → FVal) (mode : RMode) (ftz : Bool) (a b : Word) : Word :=
  BitVec.ofNat 32 (f32.result mode ftz (op mode (f32.operand ftz a.toNat) (f32.operand ftz b.toNat)))

/-- FP32 addition. -/
def fadd32 : RMode → Bool → Word → Word → Word := fp2 FVal.add
/-- FP32 subtraction. -/
def fsub32 : RMode → Bool → Word → Word → Word := fp2 fun m x y => x.add m y.neg
/-- FP32 multiplication. -/
def fmul32 : RMode → Bool → Word → Word → Word := fp2 fun _ x y => x.mul y

/-- FP32 fused multiply and add (R174). -/
def ffma32 (mode : RMode) (ftz : Bool) (a b c : Word) : Word :=
  BitVec.ofNat 32 (f32.result mode ftz
    (FVal.fma mode (f32.operand ftz a.toNat) (f32.operand ftz b.toNat) (f32.operand ftz c.toNat)))

/-- minimumNumber or maximumNumber of a format on encodings (R73, R175): one of the operands or the canonical NaN. -/
def Fmt.minMax (f : Fmt) (larger : Bool) (a b : Nat) : Nat :=
  let x := f.value a
  let y := f.value b
  if x.isNan then (if y.isNan then f.nan else b)
  else if y.isNan then a
  else if x.isZero && y.isZero then
    -- -0 is less than +0
    (if larger then min a b else max a b)
  else if x.lt y == larger then b else a

/-- vfmin and vfmax on words (R175). -/
def fminmax32 (larger ftz : Bool) (a b : Word) : Word :=
  BitVec.ofNat 32 (f32.minMax larger (f32.flush ftz a.toNat) (f32.flush ftz b.toNat))

/-- vfcmp on words (R176). -/
def fcmp32 (c : BitVec 3) (ftz : Bool) (a b : Word) : Bool :=
  FVal.cond c (f32.operand ftz a.toNat) (f32.operand ftz b.toNat)

/-- vfclass (R177): the bit of the class. -/
def fclass32 (b : Word) : Word :=
  let field := b.toNat % 2 ^ 31
  let neg := b.getLsbD 31
  let k :=
    if 0x7F800000 < field then 8
    else if field = 0x7F800000 then (if neg then 0 else 7)
    else if field = 0 then (if neg then 3 else 4)
    else if field < 0x800000 then (if neg then 2 else 5)
    else (if neg then 1 else 6)
  1#32 <<< k

/-- Round to an integral value, keeping the sign of a zero (R178). -/
def FVal.integral (mode : RMode) : FVal → FVal
  | .nan => .nan
  | .inf a => .inf a
  | .fin n m e => .fin n (roundInt mode n m e) 0

/-- vfrnd on a word (R178); FTZ applies to its operand and result (R72). -/
def frnd32 (mode : RMode) (ftz : Bool) (b : Word) : Word :=
  BitVec.ofNat 32 (f32.result mode ftz ((f32.operand ftz b.toNat).integral mode))

/-! ### Conversions (R75, R179, R180) -/

/-- The float format of a type code (R179). -/
def fmtOf (t : Nat) : Option Fmt :=
  match t with
  | 0 => some f32
  | 1 => some f16
  | 2 => some bf16
  | 3 => some e4m3
  | 4 => some e5m2
  | _ => none

/-- Width and signedness of an integer type code (R179). -/
def intTypeOf (t : Nat) : Nat × Bool :=
  match t with
  | 5 => (8, true)
  | 6 => (16, true)
  | 7 => (32, true)
  | 8 => (8, false)
  | 9 => (16, false)
  | 10 => (32, false)
  | 11 => (64, true)
  | _ => (64, false)

/-- Bytes of a type code. -/
def typeBytes (t : Nat) : Nat :=
  match fmtOf t with
  | some f => f.width / 8
  | none => (intTypeOf t).1 / 8

/-- The integer an encoding of a type stands for. -/
def intOf (t : Nat) (bits : Nat) : Int :=
  let (w, sg) := intTypeOf t
  let v := bits % 2 ^ w
  if sg && v.testBit (w - 1) then (v : Int) - (2 ^ w : Nat) else v

/-- Clamp an integer to a type's range (R75). -/
def clampInt (t : Nat) (x : Int) : Int :=
  let (w, sg) := intTypeOf t
  if sg then max (-(2 ^ (w - 1) : Nat)) (min x ((2 ^ (w - 1) : Nat) - 1)) else max 0 (min x ((2 ^ w : Nat) - 1))

/-- An integer result in 64 bits: sign-extended or zero-extended from its type's width (R180). -/
def intBits (t : Nat) (x : Int) : Nat :=
  let (w, sg) := intTypeOf t
  let v := (x % (2 ^ w : Nat)).toNat
  if sg && v.testBit (w - 1) then v + (2 ^ 64 - 2 ^ w) else v

/-- Every value of a format is a value of the other: the same one, or a wider one (R75, first row; R179). -/
def Fmt.within (sf df : Fmt) : Bool :=
  sf == df || df == f32 || ((df == f16 || df == bf16) && (sf == e4m3 || sf == e5m2))

/-- The low bits of an integer source, extended by the destination's type: signed or not (R75, last row, without .sat). -/
def intLow (dt st : Nat) (bits : Nat) : Int :=
  let w := (intTypeOf st).1
  let v := bits % 2 ^ w
  if (intTypeOf dt).2 && v.testBit (w - 1) then (v : Int) - (2 ^ w : Nat) else v

/-- Convert one value from type `st` to type `dt` (R75), as 64 result bits; narrower results lie in the low bits. An infinity
that the destination's format holds by the first row of R75, or that stays in its own (R179), is not saturated (R2). -/
def convert (dt st : Nat) (mode : RMode) (sat ftz : Bool) (bits : Nat) : Nat :=
  match fmtOf st, fmtOf dt with
  | some sf, some df =>
    df.flush (df.ftzHere ftz) (df.round mode (sat && !sf.within df) (sf.operand ftz (bits % 2 ^ sf.width)))
  | some sf, none =>
    match (sf.operand ftz (bits % 2 ^ sf.width)) with
    | .nan => intBits dt 0
    | .inf n => intBits dt (clampInt dt (if n then -(2 ^ 70 : Nat) else (2 ^ 70 : Nat)))
    | .fin n m e =>
      let i : Int := roundInt mode n m e
      intBits dt (clampInt dt (if n then -i else i))
  | none, some df =>
    let i := intOf st bits
    df.flush (df.ftzHere ftz) (df.round mode sat (.fin (decide (i < 0)) i.natAbs 0))
  | none, none => intBits dt (if sat then clampInt dt (intOf st bits) else intLow dt st bits)

/-! ### Packed pairs (R68, R181, R182) -/

/-- The 16-bit format of a packed instruction. -/
def pairFmt (bf : Bit) : Fmt := if bf.toNat == 1 then bf16 else f16

/-- An operation on each half of a word, RNE (R182). -/
def halves (f : Fmt) (ftz : Bool) (op : Nat → FVal) : Word :=
  BitVec.ofNat 16 (f.result .rne ftz (op 1)) ++ BitVec.ofNat 16 (f.result .rne ftz (op 0))

/-- Element e of a word as an operand (R68). -/
def half (f : Fmt) (ftz : Bool) (w : Word) (e : Nat) : FVal := f.operand ftz (w.toNat / 2 ^ (16 * e) % 2 ^ 16)

/-- vfpack (R181): the FP32 operands are flushed under FTZ for .f16 only, where FTZ governs the FP16 results too. -/
def fpack (bf : Bit) (ftz : Bool) (a b : Word) : Word :=
  let f := pairFmt bf
  let z := ftz && bf.toNat == 0
  BitVec.ofNat 16 (f.result .rne z (f32.operand z b.toNat)) ++ BitVec.ofNat 16 (f.result .rne z (f32.operand z a.toNat))

end Sys2Proof.Machine
end

