-- ==== Sys2Proof/Machine/Operands.lean ====
section
/-!
DEFINITION. Operand forms: the vector, scalar and immediate sources of the F3 words (R25, R36, R162), the effective
address of an FM instruction (R37), and the shapes in which results are written.
-/
namespace Sys2Proof.Machine

/-- Source a of an F3 instruction in a lane. -/
def Run.a32 (r : Run) (f : F3) (l : Nat) : Word := r.g.vreg f.a.toNat l

/-- Source a as a pair. -/
def Run.a64 (r : Run) (f : F3) (l : Nat) : DWord := r.g.vreg2 f.a.toNat l

/-- Source b of a 32-bit operation: a vector lane, or bits [31:0] of a scalar (R25). -/
def Run.src32 (r : Run) (b : Reg7) (sb : Bit) (l : Nat) : Word :=
  if sb.toNat == 1 then (r.g.sreg b.toNat).extractLsb' 0 32 else r.g.vreg b.toNat l

/-- Source b of a 64-bit operation: a pair, or all 64 bits of a scalar (R162). -/
def Run.src64 (r : Run) (b : Reg7) (sb : Bit) (l : Nat) : DWord :=
  if sb.toNat == 1 then r.g.sreg b.toNat else r.g.vreg2 b.toNat l

/-- Source b of an F3 instruction. -/
def Run.b32 (r : Run) (f : F3) (l : Nat) : Word := r.src32 f.b f.sb l

/-- Source b of an F3 instruction as 64 bits. -/
def Run.b64 (r : Run) (f : F3) (l : Nat) : DWord := r.src64 f.b f.sb l

/-- A scalar by a 7-bit field (R51). -/
def Run.sc (r : Run) (n : Reg7) : DWord := r.g.sreg n.toNat

/-- A scalar by a 6-bit field. -/
def Run.sx (r : Run) (n : SReg) : DWord := r.g.sreg n.toNat

/-- FTZ of the group's %fmode (R30). -/
def Run.ftz (r : Run) : Bool := r.g.fmode.getLsbD 0

/-- Write a 32-bit vector result in the active lanes (R27, R163). -/
def Run.vec32 (r : Run) (s : State) (d : Reg7) (f : Nat → Word) : Out :=
  .next (r.put s (r.g.writeV d.toNat r.act f))

/-- Write a 64-bit vector result in the active lanes (R25, R163). -/
def Run.vec64 (r : Run) (s : State) (d : Reg7) (f : Nat → DWord) : Out :=
  .next (r.put s (r.g.writeV2 d.toNat r.act f))

/-- Write a scalar result (R163). -/
def Run.scal (r : Run) (s : State) (d : Reg7) (x : DWord) : Out := .next (r.put s (r.g.setS d.toNat x))

/-- Write a lane mask into a scalar: bits of inactive lanes and [63:32] are zero (R26). -/
def Run.mask (r : Run) (s : State) (d : Reg7) (p : Nat → Bool) : Out := r.scal s d (zext (maskWhere r.act p))

/-- An F3 vector operation of 32 or 64 bits by its width bit (R165). -/
def vecWide (s : State) (w : Bit) (f : F3) (op32 : Run → Nat → Word) (op64 : Run → Nat → DWord) : Out :=
  onRun s fun r => if w.toNat == 1 then r.vec64 s f.d (op64 r) else r.vec32 s f.d (op32 r)

/-- A two-source 32-bit vector operation (R165). -/
def vecBin (s : State) (f : F3) (op : Word → Word → Word) : Out :=
  onRun s fun r => r.vec32 s f.d fun l => op (r.a32 f l) (r.b32 f l)

/-- A two-source floating operation, which sees FTZ (R69, R72). -/
def vecFp (s : State) (f : F3) (op : Bool → Word → Word → Word) : Out :=
  onRun s fun r => r.vec32 s f.d fun l => op r.ftz (r.a32 f l) (r.b32 f l)

/-- A unary 32-bit vector operation (R162). -/
def vecUn (s : State) (f : U3) (op : Bool → Word → Word) : Out :=
  onRun s fun r => r.vec32 s f.d fun l => op r.ftz (r.src32 f.b f.sb l)

/-- A two-source scalar operation (R171). -/
def scBin (s : State) (f : S3) (op : DWord → DWord → DWord) : Out :=
  onRun s fun r => r.scal s f.d (op (r.sc f.a) (r.sc f.b))

/-- A unary scalar operation (R171). -/
def scUn (s : State) (f : SU) (op : DWord → DWord) : Out := onRun s fun r => r.scal s f.d (op (r.sc f.b))

/-- The effective address of an FM instruction in a lane (R37). -/
def Run.ea (r : Run) (m : Fm) (l : Nat) : DWord :=
  let idx : DWord := if m.nx.toNat == 1 then 0 else (r.g.vreg m.vidx.toNat l).signExtend 64 <<< m.scale.toNat
  r.sx m.sbase + idx + m.off.signExtend 64

/-- The target of a branch: the address of the branch word plus 4 times the offset (R36, R218). -/
def Run.target (r : Run) (off : BitVec 16) : Nat :=
  (BitVec.ofNat 64 (r.sp.hdr + 4 * (r.sp.pos + 1)) + off.signExtend 64 * 4).toNat

/-- The address execution falls through to: the word after the clause's last (R32). -/
def Split.fallThrough (sp : Split) : Nat := sp.hdr + 4 * (sp.words.length + 1)

end Sys2Proof.Machine
end

