-- ==== Sys2Proof/Machine/Sfu.lean ====
section
/-!
DEFINITION. The special function unit (09_compute_instructions.md R183, R184). Off the special inputs the manual
publishes only bounds: the result is a free function of the input (Config.sfuBits), kept where it lies within the bound
around the true value and replaced by the true value rounded where it does not (log 7). The true value is computed with
80 fraction bits.
-/
namespace Sys2Proof.Machine

/-- One, with 80 fraction bits. -/
def fxOne : Nat := 2 ^ 80

/-- ln 2 with 80 fraction bits. -/
def fxLn2 : Nat := 837963523372001241319907

/-- π / 2 with 80 fraction bits. -/
def fxHalfPi : Nat := 1898976236818169290393996

/-- Sum of the exponential series from a term on. -/
def expSeries (y : Nat) : Nat → Nat → Nat → Nat
  | 0, _, _ => 0
  | fuel + 1, k, term => term + expSeries y fuel (k + 1) (term * y / (k * fxOne))

/-- 2^f for a fraction f. -/
def fxExp2 (f : Nat) : Nat := expSeries (f * fxLn2 / fxOne) 32 1 fxOne

/-- Sum of the series of the inverse hyperbolic tangent. -/
def atanhSeries (z2 : Nat) : Nat → Nat → Nat → Nat
  | 0, _, _ => 0
  | fuel + 1, k, p => p / k + atanhSeries z2 fuel (k + 2) (p * z2 / fxOne)

/-- log2 of a number from 1 up to 2. -/
def fxLog2 (u : Nat) : Nat :=
  let z := (u - fxOne) * fxOne / (u + fxOne)
  2 * atanhSeries (z * z / fxOne) 32 1 z * fxOne / fxLn2

/-- Alternating series of sine (from k = 1) or cosine (from k = 0), at an angle up to π / 2. -/
def trigSeries (y2 : Nat) : Nat → Nat → Nat → Int
  | 0, _, _ => 0
  | fuel + 1, k, term => (term : Int) - trigSeries y2 fuel (k + 2) (term * y2 / fxOne / ((k + 1) * (k + 2)))

/-- sin of a · π / 2, for a from 0 to 1. -/
def fxSin (a : Nat) : Int :=
  let y := a * fxHalfPi / fxOne
  trigSeries (y * y / fxOne) 16 1 y

/-- cos of a · π / 2, for a from 0 to 1. -/
def fxCos (a : Nat) : Int :=
  let y := a * fxHalfPi / fxOne
  trigSeries (y * y / fxOne) 16 0 fxOne

/-- sin 2πr for a fraction r of a turn. -/
def fxTurn (r : Nat) : Int :=
  let q := 4 * r / fxOne % 4
  let a := 4 * r % fxOne
  match q with
  | 0 => fxSin a
  | 1 => fxCos a
  | 2 => -(fxSin a)
  | _ => -(fxCos a)

/-- Integer square root, bit by bit. -/
def isqrtGo (n : Nat) : Nat → Nat → Nat
  | 0, r => r
  | b + 1, r => if (r + 2 ^ b) * (r + 2 ^ b) ≤ n then isqrtGo n b (r + 2 ^ b) else isqrtGo n b r

/-- Integer square root of a number below 2^160. -/
def isqrt (n : Nat) : Nat := isqrtGo n 80 0

/-- A positive value m·2^e with 80 fraction bits, rounded down. -/
def fxOf (m : Nat) (e : Int) : Nat := roundInt .rtz false m (e + 80)

/-- An integer with 80 fraction bits as a value. -/
def fxVal (x : Int) : FVal := .fin (decide (x < 0)) x.natAbs (-80)

/-- 2^x for ±m·2^e. -/
def trueExp2 (n : Bool) (m : Nat) (e : Int) : FVal :=
  let x : Int := if n then -(fxOf m e : Int) else fxOf m e
  .fin false (fxExp2 (x % (fxOne : Int)).toNat) (x / (fxOne : Int) - 80)

/-- The function of an SFU code (R184, opcode 0x100 + code) at ±m·2^e off its special inputs, nearly exact. -/
def sfuTrue (op : Nat) (n : Bool) (m : Nat) (e : Int) : FVal :=
  let even : Int := if (e % 2) = 0 then 100 else 101
  let root := isqrt (m * 2 ^ even.toNat)
  let half := (e - even) / 2
  match op with
  | 0 => trueExp2 n m e
  | 1 =>
    let k := Nat.log2 m
    fxVal ((e + k) * fxOne + fxLog2 (m * 2 ^ 80 / 2 ^ k))
  | 2 => .fin n (2 ^ 100 / m) (-100 - e)
  | 3 => .fin false (2 ^ 160 / root) (-160 - half)
  | 4 => .fin false root half
  | 5 => fxVal (fxTurn (((if n then -(fxOf m e : Int) else fxOf m e) % (fxOne : Int)).toNat))
  | 6 => fxVal (fxTurn (((if n then -(fxOf m e : Int) else fxOf m e) % (fxOne : Int)).toNat + fxOne / 4))
  | _ =>
    let x := 2 * fxOf m e * fxOne / fxLn2
    let ex := fxExp2 (x % fxOne) * 2 ^ (x / fxOne)
    .fin n ((ex - fxOne) * fxOne / (ex + fxOne)) (-80)

/-- The exponent of the unit in the last place of a finite FP32 encoding. -/
def ulpExp (bits : Nat) : Int := f32.qmin + ((bits % 2 ^ 31) / 2 ^ 23 - 1 : Nat)

/-- A value lies within n·2^q of another. -/
def FVal.within (x y : FVal) (n : Nat) (q : Int) : Bool :=
  match x.add .rne y.neg with
  | .fin _ m e => let b := min e q; m * 2 ^ (e - b).toNat ≤ n * 2 ^ (q - b).toNat
  | _ => false

/-- The bound of R184 holds between an encoding and the true value. -/
def sfuWithin (op : Nat) (n : Bool) (m : Nat) (e : Int) (bits : Nat) : Bool :=
  let t := sfuTrue op n m e
  let y := f32.value bits
  let q := ulpExp (f32.round .rne false t)
  let isOneHalfToTwo := let k := (Nat.log2 m : Int) + e; k == -1 || k == 0
  match op with
  | 0 => y.within t 2 q
  | 1 => if isOneHalfToTwo then y.within t 1 (-22) else y.within t 2 q
  | 2 => y.within t 1 q
  | 3 => y.within t 2 q
  | 4 => y.within t 1 q
  | 5 => y.within t 1 (-22)
  | 6 => y.within t 1 (-22)
  | _ => y.within t 2 q || y.within t 1 (-23)

/-- The special inputs of R184 with their results, as encodings; a NaN gives the canonical NaN. -/
def sfuSpecial (op : Nat) (v : FVal) : Option Nat :=
  let one := 0x3F800000
  let inf := 0x7F800000
  let neg := 0x80000000
  match v with
  | .nan => some f32.nan
  | .inf n =>
    match op with
    | 0 => some (if n then 0 else inf)
    | 1 => some (if n then f32.nan else inf)
    | 2 => some (if n then neg else 0)
    | 3 => some (if n then f32.nan else 0)
    | 4 => some (if n then f32.nan else inf)
    | 5 => some f32.nan
    | 6 => some f32.nan
    | _ => some (if n then neg + one else one)
  | .fin n m e =>
    let frac := fxOf m (e + 2) % (4 * fxOne)
    let quarters := frac / fxOne
    let isQuarter := frac % fxOne = 0 && (0 ≤ e + 82 || m % 2 ^ (-(e + 82)).toNat = 0)
    let turn := if n then (4 - quarters) % 4 else quarters
    if m = 0 then
      match op with
      | 0 => some one
      | 1 => some (neg + inf)
      | 2 => some (if n then neg + inf else inf)
      | 3 => some (if n then neg + inf else inf)
      | 4 => some (if n then neg else 0)
      | 5 => some (if n then neg else 0)
      | 6 => some one
      | _ => some (if n then neg else 0)
    else
      match op with
      | 0 =>
        let big := !n && !(FVal.lt v (.fin false 128 0))
        let small := n && !(FVal.lt (.fin true 150 0) v)
        let isInt := 0 ≤ e || m % 2 ^ (-e).toNat = 0
        let k := roundInt .rtz n m e
        if big then some inf
        else if small then some 0
        else if isInt && (!n || k ≤ 126) then some (if n then (127 - k) * 2 ^ 23 else (127 + k) * 2 ^ 23)
        else none
      | 1 =>
        let k : Int := Nat.log2 m + e
        if n then some f32.nan
        else if m = 2 ^ Nat.log2 m then some (f32.round .rne false (.fin (decide (k < 0)) k.natAbs 0) % 2 ^ 32)
        else none
      | 2 => none
      | 3 => if n then some f32.nan else none
      | 4 => if n then some f32.nan else none
      | 5 =>
        if isQuarter then
          some (if turn = 1 then one else if turn = 3 then neg + one else 0)
        else none
      | 6 =>
        if isQuarter then
          some (if turn = 0 then one else if turn = 2 then neg + one else 0)
        else none
      | _ => if FVal.lt (.fin false m e) (.fin false 9 0) then none else some (if n then neg + one else one)

/-- An SFU function on a word (R183, R184); subnormals are not flushed. -/
def sfu (op : Nat) (x : Word) : Word :=
  let v := f32.value x.toNat
  match sfuSpecial op v, v with
  | some r, _ => BitVec.ofNat 32 r
  | none, .fin n m e =>
    let y := Config.sfuBits op x
    if sfuWithin op n m e y.toNat then y else BitVec.ofNat 32 (f32.round .rne false (sfuTrue op n m e))
  | none, _ => 0#32

/-- An SFU instruction (R183): the results wait for SFU_RESULT. -/
def sfuOp (op : Nat) (d a : Reg7) (dc : DcField) (s : State) : Out :=
  onRun s fun r =>
    r.later s .sfu dc ((lanesOf r.act).map fun l => ⟨l, d.toNat, [sfu op (r.g.vreg a.toNat l)]⟩) []

/-- vex2 (R184). -/
def execVex2 (d a : Reg7) (dc : DcField) (s : State) : Out := sfuOp 0 d a dc s
/-- vlg2 (R184). -/
def execVlg2 (d a : Reg7) (dc : DcField) (s : State) : Out := sfuOp 1 d a dc s
/-- vrcp (R184). -/
def execVrcp (d a : Reg7) (dc : DcField) (s : State) : Out := sfuOp 2 d a dc s
/-- vrsq (R184). -/
def execVrsq (d a : Reg7) (dc : DcField) (s : State) : Out := sfuOp 3 d a dc s
/-- vsqrt (R184). -/
def execVsqrt (d a : Reg7) (dc : DcField) (s : State) : Out := sfuOp 4 d a dc s
/-- vsint (R184). -/
def execVsint (d a : Reg7) (dc : DcField) (s : State) : Out := sfuOp 5 d a dc s
/-- vcost (R184). -/
def execVcost (d a : Reg7) (dc : DcField) (s : State) : Out := sfuOp 6 d a dc s
/-- vtanh (R184). -/
def execVtanh (d a : Reg7) (dc : DcField) (s : State) : Out := sfuOp 7 d a dc s

/-- SFU_RESULT: the results of an SFU operation reach their registers in the lanes given; with the last, the counter
decrements (R35, R183). -/
def execSfuResult (op : Nat) (lanes : LaneMask) (s : State) : Out :=
  match s.readyOp op .sfu with
  | some o => .next (s.deliverLanes op o lanes)
  | none => .refused .notEnabled

/-! ### Cross-lane (R185 to R191) -/

/-- A cross-lane operation: the results wait for CROSSLANE_RESULT. -/
def Run.cross (r : Run) (s : State) (dc : DcField) (vout : List LaneOut) (sout : List (Nat × DWord)) : Out :=
  r.later s .crosslane dc vout sout

/-- The lane results of a shuffle from a choice of source lane; none keeps the lane's own value (R186). -/
def Run.shuffle (r : Run) (f : F3) (src : Nat → Option Nat) : List LaneOut :=
  (lanesOf r.act).filterMap fun l => (src l).map fun j => ⟨l, f.d.toNat, [r.g.vreg f.a.toNat j]⟩

/-- Segment base and offset of a lane (R186). -/
def segBase (seg : BitVec 3) (l : Nat) : Nat := l / 2 ^ seg.toNat * 2 ^ seg.toNat

/-- vshfl.sel (R186). -/
def execVshflSel (f : F3) (dc : DcField) (seg : BitVec 3) (s : State) : Out :=
  onRun s fun r =>
    let w := 2 ^ seg.toNat
    r.cross s dc (r.shuffle f fun l => some (segBase seg l + (r.b32 f l).toNat % w)) []

/-- vshfl.rol (R186): b is an immediate count when sb = 0. -/
def execVshflRol (f : F3) (dc : DcField) (seg : BitVec 3) (s : State) : Out :=
  onRun s fun r =>
    let w := 2 ^ seg.toNat
    let n := if f.sb.toNat == 1 then (r.sc f.b).toNat % 2 ^ 32 else f.b.toNat
    r.cross s dc (r.shuffle f fun l => some (segBase seg l + (l % w + n) % w)) []

/-- vshfl.slide (R186): a lane whose source falls outside its segment keeps its value. -/
def execVshflSlide (f : F3) (dc : DcField) (seg : BitVec 3) (s : State) : Out :=
  onRun s fun r =>
    let w := 2 ^ seg.toNat
    let n : Int := if f.sb.toNat == 1 then ((r.sc f.b).extractLsb' 0 32).toInt else f.b.toInt
    r.cross s dc (r.shuffle f fun l =>
      let o : Int := (l % w : Nat)
      if o + n < 0 || (w : Int) ≤ o + n then none else some (l + n).toNat) []

/-- vshfl.ax (R186). -/
def execVshflAx (f : F3) (dc : DcField) (seg : BitVec 3) (s : State) : Out :=
  onRun s fun r =>
    let w := 2 ^ seg.toNat
    let b := (r.sc f.b).toNat
    let aa := if f.sb.toNat == 1 then b % 32 else 31
    let x := if f.sb.toNat == 1 then b / 256 % 32 else f.b.toNat
    r.cross s dc (r.shuffle f fun l => some (segBase seg l + ((l % w &&& aa) ^^^ x) % w)) []

/-- The predicate mask of a vote (R187). -/
def Run.votes (r : Run) (a : Reg7) : LaneMask := maskWhere r.act fun l => r.g.vreg a.toNat l != 0

/-- vvote.any (R187). -/
def execVvoteAny (d a : Reg7) (dc : DcField) (s : State) : Out :=
  onRun s fun r => r.cross s dc [] [(d.toNat, if r.votes a != 0 then 1 else 0)]

/-- vvote.all (R187). -/
def execVvoteAll (d a : Reg7) (dc : DcField) (s : State) : Out :=
  onRun s fun r => r.cross s dc [] [(d.toNat, if r.votes a == r.act then 1 else 0)]

/-- vvote.ballot (R187). -/
def execVvoteBallot (d a : Reg7) (dc : DcField) (s : State) : Out :=
  onRun s fun r => r.cross s dc [] [(d.toNat, zext (r.votes a))]

/-- The operation and identity of a reduction code (R188). -/
def redOp (op : Nat) (ftz : Bool) (x y : Word) : Word :=
  match op with
  | 0 => x + y
  | 1 => minMax 0 false x y
  | 2 => minMax 1 false x y
  | 3 => minMax 0 true x y
  | 4 => minMax 1 true x y
  | 5 => x &&& y
  | 6 => x ||| y
  | 7 => x ^^^ y
  | 8 => fadd32 .rne ftz x y
  | 9 => fminmax32 false ftz x y
  | _ => fminmax32 true ftz x y

/-- The identity of a reduction code (R188). -/
def redId (op : Nat) : Word :=
  match op with
  | 0 => 0
  | 1 => 0x7FFFFFFF
  | 2 => 0xFFFFFFFF
  | 3 => 0x80000000
  | 4 => 0
  | 5 => 0xFFFFFFFF
  | 6 => 0
  | 7 => 0
  | 8 => 0x80000000
  | _ => 0x7FC00000

/-- The fold of R189 over lanes ascending: per lane, the value before and after its step. -/
def foldLanes (op : Word → Word → Word) (v : Nat → Word) : List Nat → Bool → Word → List (Nat × Word × Word)
  | [], _, _ => []
  | l :: ls, first, acc =>
    let acc' := if first then v l else op acc (v l)
    (l, acc, acc') :: foldLanes op v ls false acc'

/-- vred (R188, R189). -/
def execVred (d a : Reg7) (op : BitVec 4) (x : Bit) (dc : DcField) (s : State) : Out :=
  onRun s fun r =>
    let fs := foldLanes (redOp op.toNat r.ftz) (r.g.vreg a.toNat) (lanesOf r.act) true (redId op.toNat)
    let acc := (fs.getLast?.map fun t => t.2.2).getD (redId op.toNat)
    if x.toNat == 1 then r.cross s dc ((lanesOf r.act).map fun l => ⟨l, d.toNat, [acc]⟩) []
    else r.cross s dc [] [(d.toNat, zext acc)]

/-- vscan (R188, R189): inclusive, or exclusive when `x` is 1. -/
def execVscan (d a : Reg7) (op : BitVec 4) (x : Bit) (dc : DcField) (s : State) : Out :=
  onRun s fun r =>
    let fs := foldLanes (redOp op.toNat r.ftz) (r.g.vreg a.toNat) (lanesOf r.act) true (redId op.toNat)
    r.cross s dc (fs.map fun t => ⟨t.1, d.toNat, [if x.toNat == 1 then t.2.1 else t.2.2]⟩) []

/-- vhamm (R190). -/
def execVhamm (w : Bit) (f : HammF) (s : State) : Out :=
  onRun s fun r =>
    let dist : Nat → Nat := fun l =>
      if w.toNat == 1 then popCount (r.g.vreg2 f.a.toNat l ^^^ r.sx f.sq)
      else popCount (r.g.vreg f.a.toNat l ^^^ (r.sx f.sq).extractLsb' 0 32)
    let vs := if f.wd.toNat == 1 then
        (lanesOf r.act).map fun l =>
          (⟨l, f.ve.toNat, if w.toNat == 1 then [BitVec.ofNat 32 (dist l), 0] else [BitVec.ofNat 32 (dist l)]⟩ : LaneOut)
      else []
    r.cross s f.dc vs [(f.sd.toNat, zext (maskWhere r.act fun l => dist l ≤ f.rad.toNat))]

/-- vlanes (R191). -/
def execVlanes (d : Reg7) (sm sc : SReg) (dc : DcField) (s : State) : Out :=
  onRun s fun r =>
    let m := (r.sx sm).extractLsb' 0 32 &&& r.act
    let rank : Nat → Nat := fun l => ((lanesOf m).filter fun j => j < l).length
    r.cross s dc ((lanesOf r.act).map fun l => ⟨l, d.toNat, [BitVec.ofNat 32 (rank l)]⟩)
      [(sc.toNat, BitVec.ofNat 64 (popCount m))]

/-- CROSSLANE_RESULT: as SFU_RESULT for the cross-lane operations (R35, R185). -/
def execCrosslaneResult (op : Nat) (lanes : LaneMask) (s : State) : Out :=
  match s.readyOp op .crosslane with
  | some o => .next (s.deliverLanes op o lanes)
  | none => .refused .notEnabled

end Sys2Proof.Machine
end

