-- ==== Sys2Proof/Machine/Turner.lean ====
section
/-!
DEFINITION. The turner (04_numbers.md R84 to R89): rotation of element pairs by an angle proportional to a position,
and the block that a virtual address lies in (16_blocks_skeins.md R335, R337).
-/
namespace Sys2Proof.Machine

/-- T[k] (R86): the FP32 value nearest cos(2πk/4096), with T[1024] taken as +0.0. -/
def cosEntry (k : Nat) : Word :=
  if k = 1024 then 0 else BitVec.ofNat 32 (f32.round .rne false (fxVal (fxCos (k * 2 ^ 70))))

/-- Q(u) (R87). -/
def quarterCos (u : Nat) : Word :=
  let k := u / 2 ^ 20
  if k = 1024 then 0
  else
    let a := cosEntry k
    let b := cosEntry (k + 1)
    let w := BitVec.ofNat 32 (f32.round .rne false (.fin false (u % 2 ^ 20) (-20)))
    ffma32 .rne false (fsub32 .rne false b a) w a

/-- Flip the sign bit only (R87). -/
def flipSign (w : Word) : Word := w ^^^ 0x80000000

/-- Cosine and sine of a phase (R87). -/
def phaseCosSin (phi : Nat) : Word × Word :=
  let low := phi % 2 ^ 30
  let cq := quarterCos low
  let sq := quarterCos (2 ^ 30 - low)
  match phi / 2 ^ 30 % 4 with
  | 0 => (cq, sq)
  | 1 => (flipSign sq, cq)
  | 2 => (flipSign cq, flipSign sq)
  | _ => (sq, flipSign cq)

/-- The rotated pair (R88), for position p and table entry f. -/
def rotatePair (p : DWord) (f x y : Word) : Word × Word :=
  let (c, s) := phaseCosSin (p.toNat * f.toNat % 2 ^ 32)
  let u1 := fmul32 .rne false y s
  let u2 := fmul32 .rne false y c
  (ffma32 .rne false x c (flipSign u1), ffma32 .rne false x s u2)

/-- Pairs rotated in a row of D elements (R85). -/
def Freq.pairs (f : Freq) (d : Nat) : Nat := if 2 * f.f.length ≤ d then f.f.length else d / 2

/-- Where element e of a row of D elements stands in its pair: pair number, partner, and whether it is x (R84, R85);
none where it passes unrotated. -/
def Freq.place (f : Freq) (d e : Nat) : Option (Nat × Nat × Bool) :=
  let n := f.pairs d
  if e < 2 * n then
    if f.pair then some (e / 2, if e % 2 = 0 then e + 1 else e - 1, e % 2 == 0)
    else if e < n then some (e, e + n, true)
    else some (e - n, e - n, false)
  else none

/-- An element widened to FP32 (R85). -/
def widen (fmt : Nat) (bits : Nat) : Word := BitVec.ofNat 32 (convert 0 fmt .rne false false bits)

/-- The two words ldrot delivers for element e (R200): the element's own rotated value, then its partner's; or the
element and its successor unrotated. `elem` gives an element of the row as stored. -/
def ldrotWords (f : Freq) (d fmt e : Nat) (p : DWord) (elem : Nat → Nat) : Word × Word :=
  let v := fun i => widen fmt (elem i)
  match f.place d e with
  | some (i, j, isX) =>
    let fi := f.f.getD i 0
    if isX then rotatePair p fi (v e) (v j)
    else
      let r := rotatePair p fi (v j) (v e)
      (r.2, r.1)
  | none => (v e, if e + 1 < d then v (e + 1) else 0)

/-- Element e of a rotated row, as FP32 (R85, R88). -/
def rotElem (f : Freq) (d fmt e : Nat) (p : DWord) (elem : Nat → Nat) : Word := (ldrotWords f d fmt e p elem).1

/-! ### Blocks by address -/

/-- Bytes of a block of a pool (R335). -/
def Pool.size (p : Pool) : Nat := 2 ^ (12 + p.bsc)

/-- The pool and block index a virtual address lies in. -/
def Ctx.blockAt (c : Ctx) (va : Nat) : Option (Nat × Pool × Nat) :=
  match c.pools.find? fun e => e.2.base ≤ va && va < e.2.base + e.2.nblk * e.2.size with
  | some (k, p) => some (k, p, (va - p.base) / p.size)
  | none => none

/-- VA of block b of a pool (R335). -/
def Pool.blockVa (p : Pool) (b : Nat) : Nat := p.base + b * p.size

/-- A block's descriptor; before it first changes, the reset values of R337. -/
def Ctx.desc (c : Ctx) (p : Pool) (b : Nat) : Block1 :=
  dgetD c.blocks (p.blockVa b) ⟨0, 0, 0, p.fmt, p.dm1, false⟩

/-- Rows of a block (R337). -/
def Block1.rowBytes (b : Block1) : Nat := (b.dm1 + 1) * typeBytes b.fmt

/-- The ALLOCATED block an address lies in: its VA, its pool and its descriptor. -/
def Ctx.allocAt (c : Ctx) (va : Nat) : Option (Nat × Pool × Block1) :=
  match c.blockAt va with
  | some (_, p, b) =>
    let d := c.desc p b
    if d.alloc then some (p.blockVa b, p, d) else none
  | none => none

end Sys2Proof.Machine
end

