-- ==== Sys2Proof/Machine/Access.lean ====
section
/-!
DEFINITION. Accesses at the memory side: pages and translation (12_pages.md R248 to R256), versions and touches
(17_hoops_versions.md R355 to R362), the caches as far as software sees them (10 R196), and fault records (R258, R259).
-/
namespace Sys2Proof.Machine

/-! ### Lane causes (R375) -/

/-- MISALIGNED (R375). -/
def causeMisaligned : Nat := 9
/-- SCRATCH_BOUNDS (R375). -/
def causeScratch : Nat := 8
/-- SEALED_WRITE (R375). -/
def causeSealed : Nat := 7
/-- PERMISSION (R375). -/
def causePermission : Nat := 6
/-- MODE_VIOLATION (R375). -/
def causeMode : Nat := 5
/-- NOT_MAPPED (R375). -/
def causeNotMapped : Nat := 4
/-- REMOTE_FAULT (R375). -/
def causeRemoteFault : Nat := 3
/-- REMOTE_TIMEOUT (R375). -/
def causeRemoteTimeout : Nat := 2
/-- PAGE_NOT_PRESENT (R375): not fatal. -/
def causeNotPresent : Nat := 1

/-- Access types as bits of ACC (R259): 0 read, 1 write, 2 fetch, 3 atomic. -/
inductive AccType where
  | read
  | write
  | fetch
  | atomic
  deriving DecidableEq, Repr

/-- Bit number of an access type (R259). -/
def AccType.bit : AccType → Nat
  | .read => 0
  | .write => 1
  | .fetch => 2
  | .atomic => 3

/-- The access writes: a store or an atomic. -/
def AccType.writes (a : AccType) : Bool := a == .write || a == .atomic

/-- How an access stands to versions (R197, R397): of a NORMAL team, of a VERSIONED one, or of the holder of the token or
the device. -/
inductive Mode where
  | normal
  | version
  | token
  deriving DecidableEq, Repr

/-- The mode of a team's accesses. -/
def Team.mode (t : Team) : Mode := if !t.versioned then .normal else if t.ver.irrevocable then .token else .version

/-! ### Pages -/

/-- A 57-bit canonical address (R194): bits [63:57] equal bit 56. -/
def canonical (va : Nat) : Bool := va < 2 ^ 56 || (2 ^ 64 - 2 ^ 56 ≤ va && va < 2 ^ 64)

/-- Bytes of a size class (R248). -/
def classBytes (sc : Nat) : Nat := 2 ^ (12 + sc)

/-- Bytes of a unit of translation: the page, or a 2 MiB segment of it (R248). -/
def Page.bytes (p : Page) : Nat := min (classBytes p.sc) (2 ^ 21)

/-- The home slice of an address (R250). -/
def homeOf (asid va : Nat) : Nat :=
  let g := va / 2 ^ 21 % 2 ^ 36
  let f := (g % 2 ^ 12) ^^^ (g / 2 ^ 12 % 2 ^ 12) ^^^ (g / 2 ^ 24) ^^^ (asid % 2 ^ 12) ^^^ (asid / 2 ^ 12 * 16)
  f % 24

/-- The address space and context an address of a context falls in: its own, or an attached shared one (R252). -/
def State.spaceOf (s : State) (asid va : Nat) : Nat :=
  match dget s.ctxs asid with
  | none => asid
  | some c =>
    match c.attach.find? fun a => a.base ≤ va && va < a.base + a.size with
    | some a => a.shared
    | none => asid

/-- The page of a context that holds an address, with its base. -/
def Ctx.pageAt (c : Ctx) (va : Nat) : Option (Nat × Page) := c.pages.find? fun e => e.1 ≤ va && va < e.1 + e.2.bytes

/-- The page an access reaches: address space, base and page (R251, R252). -/
def State.pageAt (s : State) (asid va : Nat) : Option (Nat × Nat × Page) :=
  let a := s.spaceOf asid va
  match dget s.ctxs a with
  | none => none
  | some c => (c.pageAt va).map fun e => (a, e.1, e.2)

/-- Number of a page: its address space and base. -/
def pageId (asid base : Nat) : Nat := asid * 2 ^ 64 + base

/-- Change a page. -/
def State.modPage (s : State) (asid base : Nat) (f : Page → Page) : State :=
  s.modCtx asid fun c => { c with pages := dmod c.pages base f }

/-- Storage address of a page in the slow tier. -/
def Page.slowBase (p : Page) : Nat :=
  match p.loc with
  | .slow store _ => slowKey (store + p.locOff)
  | _ => slowKey p.locOff

/-- Where the bytes of a page stand that the package holds or reaches as its slow tier: its frame, or the slow store (R255). -/
def Page.store (p : Page) : Option Nat :=
  match p.st with
  | .resident => some p.frame
  | .sealed => some p.frame
  | .migrating => some p.frame
  | .evicting => some p.frame
  | _ => if p.back == 1 then some p.slowBase else none

/-- Storage address of a byte of a page. -/
def Page.key (p : Page) (base va : Nat) : Nat := p.frame + (va - base)

/-- The region of a context that holds an address (R353). -/
def Ctx.regionAt (c : Ctx) (va : Nat) : Option (Nat × Region) :=
  c.regions.find? fun e => e.2.base ≤ va && va < e.2.base + e.2.size

/-- Bytes of a granule (R353). -/
def Region.granule (r : Region) : Nat := 2 ^ (6 + r.g)

/-- Base of the granule that holds an address (R353). -/
def Region.granuleBase (r : Region) (va : Nat) : Nat := va - (va - r.base) % r.granule

/-- The region of a context's own space at an address. -/
def State.regionAt (s : State) (asid va : Nat) : Option (Nat × Region) :=
  match dget s.ctxs asid with
  | none => none
  | some c => c.regionAt va

/-- The permission an access type needs (R249, R251). -/
def Page.permits (p : Page) (a : AccType) : Bool :=
  match a with
  | .read => p.r
  | .write => p.w
  | .fetch => p.x
  | .atomic => p.w

/-- How a core access meets a page that permits it (R256, R273): a cause, or 0. -/
def Page.coreCause (p : Page) (a : AccType) : Nat :=
  match p.st with
  | .resident => 0
  | .migrating => 0
  | .evicting => 0
  | .sealed => if a.writes then causeSealed else 0
  | .remote => if p.back == 2 then 0 else causeNotPresent
  | .faulting => causeNotPresent
  | .promoting => causeNotPresent

/-- How a porter access meets a page that permits it (R256): reads of a page in the slow tier are served in place. -/
def Page.porterCause (p : Page) (a : AccType) : Nat :=
  match p.st with
  | .sealed => if a.writes then causeSealed else 0
  | .remote => if p.back == 2 || !a.writes then 0 else causeNotPresent
  | .faulting => if a.writes then causeNotPresent else 0
  | .promoting => if a.writes then causeNotPresent else 0
  | _ => 0

/-- The cause an access of a team meets, or 0 (R194, R251, R256): the canonical check, the mapping, the permission, the
region, the window of a peer (R397), and the state of the page, by the column of R256. -/
def State.causeBy (s : State) (column : Page → AccType → Nat) (asid : Nat) (mode : Mode) (va : Nat) (a : AccType) :
    Nat :=
  if !canonical va then causeNotMapped
  else
    match s.pageAt asid va with
    | none => causeNotMapped
    | some (_, _, p) =>
      if !p.permits a then causePermission
      else if mode == .normal && (s.regionAt asid va).isSome then causeMode
      else if mode == .version && p.back == 2 then causeMode
      else column p a

/-- The cause a core access of a team meets, or 0 (R256). -/
def State.causeAt (s : State) (asid : Nat) (mode : Mode) (va : Nat) (a : AccType) : Nat :=
  s.causeBy Page.coreCause asid mode va a

/-- A committed byte of the pages of one context, attached ranges left aside; zero where nothing is mapped. -/
def State.ownByte (s : State) (space va : Nat) : Byte :=
  match (dget s.ctxs space).bind fun c => c.pageAt va with
  | some (b, p) => s.mem.read (p.key b va)
  | none => 0

/-- A committed byte of a context's space; zero where nothing is mapped. -/
def State.vbyte (s : State) (asid va : Nat) : Byte := s.ownByte (s.spaceOf asid va) va

/-- Committed bytes of a context's space. -/
def State.vbytes (s : State) (asid va n : Nat) : List Byte := (List.range n).map fun i => s.vbyte asid (va + i)

/-- Write committed bytes of a context's space. -/
def State.vwrite (s : State) (asid va : Nat) (bs : List Byte) : State :=
  match s.pageAt asid va with
  | some (_, b, p) => { s with mem := s.mem.writeN (p.key b va) bs }
  | none => s

/-! ### Pseudo-channels (R269, R271) -/

/-- Parity of a number of 37 bits. -/
def parity37 (x : Nat) : Bool := (List.range 37).foldl (fun b i => b != x.testBit i) false

/-- The masks of a mask set (R269). -/
def Ctx.masks (c : Ctx) (mset : Nat) : List Nat :=
  match mset with
  | 0 => (List.range 6).map fun i => 2 ^ (7 + i)
  | 1 => (List.range 6).map fun i => 2 ^ (7 + i) + 2 ^ (13 + i)
  | 2 => c.masks2.map BitVec.toNat
  | _ => c.masks3.map BitVec.toNat

/-- The pseudo-channel of a stack address (R269). -/
def channelOf (masks : List Nat) (a : Nat) : Nat :=
  (masks.zipIdx).foldl (fun p (h, i) => if parity37 (a &&& h) then p + 2 ^ i else p) 0

/-- Count one sector of a context's page on a stack (R271): counters saturate at 32 bits. -/
def State.countSector (s : State) (asid : Nat) (p : Page) (key : Nat) : State :=
  s.modCtx asid fun c =>
    let stack := key / 2 ^ 37
    let k := 64 * stack + channelOf (c.masks p.mset) (key % 2 ^ 37)
    { c with pch := sset 0 c.pch k (min (sget 0 c.pch k + 1) (2 ^ 32 - 1)) }

/-! ### Caches (R196, R251, R429; log 9) -/

/-- Sectors of live versions in a cluster's pool (R361). -/
def State.poolUse (s : State) (cl : Nat) : Nat :=
  s.teams.foldl (fun n e => if clusterOf e.2.core == cl then n + e.2.ver.sectors.length else n) 0

/-- A cluster cache serves an access to a sector of one granted to the team named, if any (R251, R355). -/
def Cluster.holdsSector (c : Cluster) (asid sec : Nat) (granted : Option Nat) : Bool :=
  c.sectors.any fun e => e.asid == asid && e.va == sec && (granted.isNone || e.team == granted)

/-- A dirty sector of a context's page is written back, which its stack counts (R251, R271). -/
def State.countBack (s : State) (asid va : Nat) : State :=
  match (dget s.ctxs asid).bind fun c => c.pageAt va with
  | some (b, p) => if p.st == .remote then s else s.countSector asid p (p.key b va)
  | none => s

/-- Sectors leave the cluster caches for the change of a mapping: each dirty one is written back (R253). -/
def State.writeBack (s : State) (xs : List CSector) : State :=
  xs.foldl (fun s x => if x.dirty then s.countBack x.asid x.va else s) s

/-- A cluster cache evicts sectors: each dirty one goes to its home slice, which holds it while the page moves (R251, R263). -/
def State.evictBack (s : State) (xs : List CSector) : State :=
  xs.foldl (fun s x =>
    if !x.dirty then s
    else
      match (dget s.ctxs x.asid).bind fun c => c.pageAt x.va with
      | some (b, p) =>
        if p.st == .migrating || p.st == .evicting then
          s.modPage x.asid b fun p => { p with hold := p.hold ++ [.wback x.va] }
        else s.countBack x.asid x.va
      | none => s) s

/-- The sectors of every cluster cache for which a test holds are written back and leave it. -/
def State.dropSectors (s : State) (hit : CSector → Bool) : State :=
  let s1 := s.writeBack (s.clusters.flatMap fun e => e.2.sectors.filter hit)
  { s1 with clusters := s1.clusters.map fun e => (e.1, { e.2 with sectors := e.2.sectors.filter fun x => !hit x }) }

/-- The line of 256 bytes of a cluster cache that a sector lies in (R15). -/
def CSector.line (x : CSector) : Nat × Nat := (x.asid, x.va / 256)

/-- The slice of a cluster cache that holds a line (R15, log 9). -/
def cacheSliceOf (l : Nat × Nat) : Nat := Config.cacheSlice l.1 l.2 % 32

/-- Of some lines of a cluster cache one leaves, one allocated with pol 2 or by stnt before the others (R429, log 9). -/
def State.evictLine (s : State) (cl : Nat) (cands : List (Nat × Nat)) : State :=
  let c := s.cluster cl
  let low := cands.filter fun l => c.sectors.any fun x => x.first && x.line == l
  let from' := if low.isEmpty then cands else low
  match from'[Config.cacheVictim s.freeCtr % from'.length]? with
  | some l =>
    let s1 : State := { s with clusters := dset s.clusters cl { c with sectors := c.sectors.filter fun x => x.line != l } }
    s1.useFree.evictBack (c.sectors.filter fun x => x.line == l)
  | none => s

/-- A line, or a sector of a version, enters a cluster cache: where the line's slice is full, or the lines and the versions' sectors
fill the cache, a line leaves (R15, R429, log 9). -/
def State.cacheRoom (s : State) (cl : Nat) (new : Option (Nat × Nat)) : State :=
  let c := s.cluster cl
  if c.sectors.length + s.poolUse cl < Config.sliceLines then s
  else
    let lines := (c.sectors.map CSector.line).eraseDups
    if (new.map lines.contains).getD false then s
    else
      let here := match new with
        | some l => lines.filter fun x => cacheSliceOf x == cacheSliceOf l
        | none => []
      if Config.sliceLines ≤ here.length then s.evictLine cl here
      else if 4 * lines.length + s.poolUse cl < 4 * 32 * Config.sliceLines then s
      else s.evictLine cl lines

/-- How an access uses the cluster cache (R196, R202, R204): whether it allocates there, and first for eviction. -/
structure CachePol where
  alloc : Bool
  first : Bool

/-- The cluster cache's part of a cache policy: pol 2 and stnt go first for eviction, a load of pol 3 does not allocate; an
atomic has no policy (R196, R202, R208). -/
def MemWork.cachePol (m : MemWork) : CachePol :=
  match m.kind with
  | .atomic _ => ⟨true, false⟩
  | .storeNt => ⟨true, true⟩
  | .load => ⟨m.pol != 3, m.pol == 2⟩
  | .rot => ⟨m.pol != 3, m.pol == 2⟩
  | _ => ⟨true, m.pol == 2⟩

/-- An access at a sector by an agent of a cluster: a miss in every cluster cache counts a sector at the stack; a write takes the
sector from the other clusters' caches and leaves it dirty in its own (R271, R22). A sector of a declared region serves the team of
its grant alone, and is that of the team named from then on (R355). -/
def State.touchSector (s : State) (cl asid va : Nat) (p : Page) (key : Nat) (write : Bool) (pol : CachePol) (granted : Option Nat) :
    State :=
  let sec := va / 64 * 64
  let mine (x : CSector) : Bool := x.asid == asid && x.va == sec
  let present := (List.range 8).any fun i => (s.cluster i).holdsSector asid sec granted
  let s1 := if present then s else s.countSector asid p key
  let own (x : CSector) : CSector := if mine x then { x with dirty := x.dirty || write, team := granted } else x
  let s2 : State := { s1 with clusters := s1.clusters.map fun e =>
      if e.1 == cl then (e.1, { e.2 with sectors := e.2.sectors.map own })
      else if write then (e.1, { e.2 with sectors := e.2.sectors.filter fun x => !mine x })
      else e }
  if (s2.cluster cl).holdsSector asid sec none || !(pol.alloc || write) then s2
  else
    let s3 := s2.cacheRoom cl (some (asid, sec / 256))
    let c := s3.cluster cl
    { s3 with clusters := dset s3.clusters cl { c with sectors := c.sectors ++ [⟨asid, sec, write, pol.first, granted⟩] } }

/-- A page is reached, for the choice of R268: the counter of numbers is read and goes on. -/
def State.reach (s : State) (asid base : Nat) : State :=
  (s.modPage asid base fun p => { p with reached := s.nextId }).bump

/-- The L1 line of a core at an address. -/
def Core.line (c : Core) (asid va : Nat) : Option L1Line := c.l1.find? fun l => l.asid == asid && l.va == va / 64 * 64

/-- A line leaves the L1: its tag and slot enter the victim tags, 256 at most (R153). -/
def Core.evict (c : Core) (l : L1Line) : Core :=
  { c with l1 := c.l1.filter (fun x => !(x.asid == l.asid && x.va == l.va)),
           victims := ((l.va, l.asid, l.slot) :: c.victims).take 256 }

/-- Fill a line of a core's L1 (R196, R230), evicting one where all 1,024 are valid (log 9). -/
def State.fillL1 (s : State) (core asid va slot : Nat) : State :=
  let base := va / 64 * 64
  let c := s.core core
  let c0 := { c with l1 := c.l1.filter fun x => !(x.asid == asid && x.va == base) }
  let c1 :=
    if Config.l1Lines ≤ c0.l1.length then
      match c0.l1[Config.l1Victim s.freeCtr % c0.l1.length]? with
      | some l => c0.evict l
      | none => c0
    else c0
  let data := (List.range 64).map fun i => s.ownByte asid (base + i)
  let s1 := s.setCore core { c1 with l1 := c1.l1 ++ [⟨asid, base, data, slot⟩] }
  if Config.l1Lines ≤ c0.l1.length then s1.useFree else s1

/-- A store updates the bytes it writes in a line that is present on its core (R196). -/
def State.storeL1 (s : State) (core asid va : Nat) (bs : List Byte) : State :=
  s.modCore core fun c =>
    { c with l1 := c.l1.map fun l =>
        if l.asid == asid && l.va == va / 64 * 64 then
          { l with data := (l.data.zipIdx).map fun (b, i) =>
              if va ≤ l.va + i && l.va + i < va + bs.length then bs.getD (l.va + i - va) b else b }
        else l }

/-- An L1 miss that matches a victim tag of the same slot scores and removes the tag (R153). -/
def State.missL1 (s : State) (gid core asid va slot : Nat) : State :=
  let tag := (va / 64 * 64, asid, slot)
  if (s.core core).victims.contains tag then
    (s.modCore core fun c => { c with victims := c.victims.erase tag }).modGroup gid fun g =>
      { g with score := g.score + 1 }
  else s

/-! ### Versions (R361, R362) -/

/-- A byte of a team's version, where the version holds it (R197). -/
def Version.byteAt (v : Version) (asid va : Nat) : Option Byte :=
  match v.sectors.find? fun x => x.asid == asid && x.va == va / 64 * 64 with
  | some x => dget x.bytes va
  | none => none

/-- A byte of an address space as a team reads it: its version's where it holds the byte, else committed (R197). -/
def State.tbyte (s : State) (t : Team) (space va : Nat) : Byte :=
  match t.ver.byteAt space va with
  | some b => b
  | none => s.ownByte space va

/-- Bytes as a team reads them. -/
def State.tbytes (s : State) (t : Team) (va n : Nat) : List Byte :=
  let a := s.spaceOf t.asid va
  (List.range n).map fun i => s.tbyte t a (va + i)

/-- The version holds the sector of an address. -/
def Version.holds (v : Version) (asid va : Nat) : Bool :=
  v.sectors.any fun x => x.asid == asid && x.va == va / 64 * 64

/-- Write bytes of one sector into a version. -/
def Version.write (v : Version) (asid va : Nat) (bs : List Byte) : Version :=
  let put (m : Dict Byte) : Dict Byte := (bs.zipIdx).foldl (fun m (b, i) => dset m (va + i) b) m
  if v.holds asid va then
    { v with sectors := v.sectors.map fun x =>
        if x.asid == asid && x.va == va / 64 * 64 then { x with bytes := put x.bytes } else x }
  else { v with sectors := v.sectors ++ [⟨asid, va / 64 * 64, put []⟩], used := v.used + 64 }

/-- The version takes in writes: it is open and its team has not taken the token (R363, R364). -/
def Team.forming (t : Team) : Bool := t.versioned && !t.ver.irrevocable

/-- BUDGET of a team's kernel (R106). -/
def State.budgetOf (s : State) (t : Team) : Nat := ((dget s.kernels t.kernel).map fun k => k.field 452 432).getD 0

/-- A team has received the token (R364). -/
def State.hasToken (s : State) (e : Nat × Team) : Bool := e.2.ver.irrevocable || s.pk.tokenHolder == some e.1

/-- The youngest of a list of teams: the largest age (R29). -/
def youngest (ts : List (Nat × Team)) : Option (Nat × Team) :=
  ts.foldl (fun b e =>
    match b with
    | none => some e
    | some x => if x.2.age.toNat < e.2.age.toNat then some e else some x) none

/-- Wound a team (R358, R359): the wound sets out for the team's core, and WOUND_ARRIVAL finds what it meets there. A
team that has received the token, or that a wound is on its way to already, is left as it is. -/
def State.wound (s : State) (tid : Nat) (aux : Nat) (age : DWord) : State :=
  s.modTeam tid fun t =>
    if !t.ver.irrevocable && s.pk.tokenHolder != some tid && t.wounds.isEmpty && (t.st == .running || t.st == .preempted || t.st == .swapped) then
      { t with wounds := [(aux, age)] }
    else t

/-- Change the hoop of a granule. -/
def State.modHoop (s : State) (sl asid va : Nat) (f : Hoop → Hoop) : State :=
  let x := s.slice sl
  let x' := { x with hoops := x.hoops.map fun h => if h.asid == asid && h.va == va then f h else h }
  { s with slices := dset s.slices sl x' }

/-- U is older than T, or holds the token; and T does not hold it (R356). -/
def State.outranks (s : State) (u t : Nat × Team) : Bool :=
  !s.hasToken t && (s.hasToken u || decide (u.2.age.toNat < t.2.age.toNat))

/-- A held reference names work of a team. -/
def State.refOf (s : State) (r : Nat × Nat) : Option Nat :=
  if 2 ^ 60 ≤ r.1 then (dget s.groups (r.1 - 2 ^ 60)).map Group.team else (dget s.flight r.1).map Op.team

/-- The held touches of the token holder meet their granules afresh: it wounds their holders (R356, R365). -/
def State.rejudge (s : State) (tid : Nat) : State :=
  let waits := s.slices.flatMap fun e => (e.2.hoops.filter fun h =>
    !h.wounding && !h.leaving && h.held.any fun r => s.refOf r == some tid).map fun h => (e.1, h)
  waits.foldl (fun s w =>
    match dget s.teams tid, dget s.teams w.2.team with
    | some t, some o =>
      if s.outranks (tid, t) (w.2.team, o) then
        (s.modHoop w.1 w.2.asid w.2.va fun h => { h with wounding := true }).wound w.2.team 0 t.age
      else s
    | _, _ => s) s

/-- A team receives the token: from then on nothing wounds it, and it wounds those it waits for; TOKEN_GRANT then does what the grant
brings (R356, R364, R365). -/
def State.receiveToken (s : State) (tid : Nat) : State := { s with pk := { s.pk with tokenHolder := some tid } }.rejudge tid

/-- Request the irrevocable token for a team: a free token is received at once (R362, R364). -/
def State.askToken (s : State) (tid : Nat) : State :=
  let s1 := s.modTeam tid fun t => { t with ver := { t.ver with tokenWait := true } }
  if s.pk.tokenHolder.isNone then s1.receiveToken tid else s1

/-- A record or a chandler operation of the team waits for the token, for want of room in its version (R362). -/
def State.overflows (s : State) (tid : Nat) : Bool :=
  (s.groups.any fun e => e.2.team == tid && e.2.splits.any fun sp =>
    match sp.st with
    | .blocked (.held ..) => true
    | _ => false)
  || s.flight.any fun e => e.2.team == tid &&
    match e.2.work with
    | .chandler _ _ held => held
    | _ => false

/-- Room for a new sector of a team's version: within its budget and the pool of its cluster; otherwise what R362 does:
the team asks for the token, or the youngest other team is wounded. -/
def State.roomFor (s : State) (tid : Nat) (t : Team) (charge : Nat) (sector : Bool) : Option State :=
  if t.ver.used + charge > s.budgetOf t then some (s.askToken tid)
  else if sector && 2 ^ 18 ≤ s.poolUse (clusterOf t.core) then
    let cands := s.teams.filter fun e =>
      e.2.asid == t.asid && e.2.versioned && clusterOf e.2.core == clusterOf t.core && !e.2.ver.sectors.isEmpty
    match youngest cands with
    | some y =>
      if y.1 == tid || s.hasToken y then some (s.askToken tid)
      else some (s.wound y.1 2 0)
    | none => some (s.askToken tid)
  else none

/-! ### The context arena (R92, R93) -/

/-- Bytes of the register image of a kernel's teams, I of R93: 1 KiB per granule and 512 B per group. -/
def Kernel.image (k : Kernel) : Nat :=
  (List.range (k.field 367 366 + 1)).foldl (fun n r =>
    n + k.field (392 + 10 * r + 5) (392 + 10 * r) * (1024 * k.granules r + 512)) 0

/-- The team part of R93. -/
def Kernel.teamPart (k : Kernel) : Nat := 2 * k.image + 4096 * k.field 384 376 + 5120

/-- Bytes of the arena in use (R93, R103, R315, R335, R341, R357). A retired team keeps its part while an entry of its pending-launch
queue remains (R126). -/
def State.arenaUse (s : State) (a : Nat) (c : Ctx) : Nat :=
  2 ^ 20
    + c.queues.foldl (fun n e => n + 2 ^ 15 * 2 ^ e.2.c) 0
    + c.pools.foldl (fun n e => n + 32 * e.2.nblk) 0
    + c.skeins.foldl (fun n e => n + 64 + 8 * (e.2.ns + e.2.win)) 0
    + s.teams.foldl (fun n e =>
        if e.2.asid == a && (e.2.st != .retired || !e.2.pend.isEmpty) then
          n + ((dget s.kernels e.2.kernel).map Kernel.teamPart).getD 0 + 2 ^ 18 * (e.2.banks.filter fun b =>
            match b with
            | .evicted .. => true
            | _ => false).length
        else n) 0
    + s.slices.foldl (fun n e => n + 16 * (e.2.hoops.filter fun h => h.inOverflow && h.asid == a).length) 0

/-- The arena of a context has room for some more bytes. -/
def State.arenaFits (s : State) (a bytes : Nat) : Bool :=
  match dget s.ctxs a with
  | some c => s.arenaUse a c + bytes ≤ c.arenaMiB * 2 ^ 20
  | none => false

/-! ### Touches (R355 to R357) -/

/-- The hoop of a granule at its home slice. -/
def Slice.hoop (x : Slice) (asid va : Nat) : Option Hoop := x.hoops.find? fun h => h.asid == asid && h.va == va

/-- A held touch names an access of one operation in one granule: lanes of one instruction that touch a granule are decided
together (R355). -/
def State.sameTouch (s : State) (t : Team) (rg : Region) (gb : Nat) (ref r : Nat × Nat) : Bool :=
  r.1 == ref.1 && (r == ref ||
    match (dget s.flight r.1).map Op.work with
    | some (.mem m) => ((m.units[r.2]?).map fun u => rg.granuleBase u.addr == gb
        && (s.regionAt t.asid u.addr).isSome).getD false
    | _ => false)

/-- Grant a FREE granule to a team: the lines of the granule leave the requesting core's L1 (R355). -/
def State.grantHoop (s : State) (sl asid va bytes tid : Nat) (t : Team) (beyond : Bool) : State :=
  let x := s.slice sl
  let h : Hoop := ⟨asid, va, tid, false, false, [], beyond⟩
  let s1 := { s with slices := dset s.slices sl { x with hoops := x.hoops ++ [h] } }
  s1.dropL1 t.core fun l => l.asid == asid && va ≤ l.va && l.va < va + bytes

/-- What a touch comes to: served now, or held. -/
inductive Touch where
  | served (s : State)
  | held (s : State)

/-- A touch by a VERSIONED team at the home slice of a granule (R355 to R357); `ref` names the access for the queue. -/
def State.touch (s : State) (tid : Nat) (t : Team) (rg : Region) (va : Nat) (ref : Nat × Nat) : Touch :=
  let gb := rg.granuleBase va
  let sl := homeOf t.asid gb
  let x := s.slice sl
  match x.hoop t.asid gb with
  | some h =>
    if h.team == tid then .served s
    else
      let s1 := s.modHoop sl t.asid gb fun h => { h with held := h.held ++ [ref] }
      match dget s.teams h.team with
      | some o =>
        if !h.wounding && !h.leaving && s.outranks (tid, t) (h.team, o) then
          .held ((s1.modHoop sl t.asid gb fun h => { h with wounding := true }).wound h.team 0 t.age)
        else .held s1
      | none => .held s1
  | none =>
    let wait (s : State) : State :=
      let y := s.slice sl
      { s with slices := dset s.slices sl { y with starved := y.starved ++ [ref] } }
    if (x.hoops.filter fun h => !h.inOverflow).length < 32768 then
      .served (s.grantHoop sl t.asid gb rg.granule tid t false)
    else
      let holders := s.teams.filter fun e =>
        e.2.asid == t.asid && e.2.versioned && (e.1 == tid || x.hoops.any fun h => h.team == e.1)
      let victim := match youngest holders with
        | some y => if y.1 != tid && !s.hasToken y then some y.1 else none
        | none => none
      match victim with
      | some y => .held (wait (s.wound y 1 0))
      | none =>
        if s.arenaFits t.asid 16 then .served (s.grantHoop sl t.asid gb rg.granule tid t true)
        else if x.counted.any (s.sameTouch t rg gb ref) then .held (wait s)
        else
          let s1 := wait s
          let y := s1.slice sl
          .held (({ s1 with slices := dset s1.slices sl { y with counted := y.counted ++ [ref] } } : State).modCtx t.asid fun c =>
            { c with arenaWait := c.arenaWait + 1 })

/-! ### Fault records (R258, R259, R384) -/

/-- Write a record into a context's fault log: 1,024 at most, the oldest overwritten (R384). -/
def State.logFault (s : State) (asid : Nat) (f : FaultRecord) : State :=
  s.modCtx asid fun c => { c with faultLog := (c.faultLog ++ [f]).drop (c.faultLog.length + 1 - 1024) }

/-- The size class a record names: that of the page, 0 for UNMAPPED (R259). -/
def State.classAt (s : State) (asid va : Nat) : Nat := ((s.pageAt asid va).map fun e => e.2.2.sc).getD 0

/-- The number of the page an address lies in, or of its 4 KiB where nothing is mapped. -/
def State.pageOf (s : State) (asid va : Nat) : Nat :=
  ((s.pageAt asid va).map fun e => pageId e.1 e.2.1).getD (pageId asid (va / 4096 * 4096))

/-- Merge one lane's cause into an instruction's records: one per page, access type and cause (R258). -/
def addRecord (rs : List (Nat × FaultRecord)) (page : Nat) (f : FaultRecord) : List (Nat × FaultRecord) :=
  if rs.any fun e => e.1 == page && e.2.acc == f.acc && e.2.cause == f.cause then
    rs.map fun (e : Nat × FaultRecord) =>
      if e.1 == page && e.2.acc == f.acc && e.2.cause == f.cause then (e.1, { e.2 with mask := e.2.mask ||| f.mask })
      else e
  else rs ++ [(page, f)]

/-- The translation records of one instruction's lanes, lowest lane first (R258). -/
def State.records (s : State) (core : Nat) (t : Team) (acc : AccType) (lanes : List (Nat × Nat × Nat)) :
    List (Nat × FaultRecord) :=
  lanes.foldl (fun rs (l, va, cause) =>
    addRecord rs (s.pageOf t.asid va)
      ⟨core, t.lid, false, cause, 2 ^ acc.bit, s.classAt t.asid va, t.asid, 2 ^ l, s.pk.gts, va⟩) []

/-- The operation in flight of an instruction: a memory instruction bears the number before it, a porter's its own (R258, R379). -/
def State.instOp (s : State) (inst : Nat) : Option Nat :=
  if (dget s.flight inst).isSome then some inst
  else if (dget s.flight (inst + 1)).isSome then some (inst + 1)
  else none

/-- Records of an instruction may enter a core's sieve: it holds 32, and those of one instruction that are more wait until it is empty
(R258, log 20). -/
def State.sieveTakes (s : State) (core n : Nat) : Bool := (s.core core).sieve.length + min n 32 ≤ 32

/-- Enter records into a core's sieve (R258): where the sieve has emitted one of the instruction before, they carry its GTS. -/
def State.toSieve (s : State) (core gid inst : Nat) (rs : List (Nat × FaultRecord)) : State :=
  let first := (s.instOp inst).bind fun id => (dget s.flight id).bind Op.fgts
  let entry (f : Nat × FaultRecord) : SieveRec :=
    match first with
    | some g => ⟨{ f.2 with gts := g }, gid, false, true, inst, f.1⟩
    | none => ⟨f.2, gid, false, false, inst, f.1⟩
  s.modCore core fun c => { c with sieve := c.sieve ++ rs.map entry }

/-! ### Rotated loads (R200) -/

/-- The access type of a kind (R259). -/
def AccKind.acc : AccKind → AccType
  | .load => .read
  | .rot => .read
  | .pref => .read
  | .store => .write
  | .storeNt => .write
  | .pread => .read
  | .pwrite => .write
  | .atomic _ => .atomic

/-- A kind of porter access. -/
def AccKind.isPorter (k : AccKind) : Bool := k == .pread || k == .pwrite

/-- The kind of one access of an operation: a porter command's are reads and writes. -/
def MemWork.kindOf (m : MemWork) (u : Access) : AccKind := if m.kind == .pread && u.half != 0 then .pwrite else m.kind

/-- Where a ldrot lane reads: the block and descriptor bound, the row's number and address, and the element in it (R200). -/
structure RotAt where
  va : Nat
  blk : Block1
  row : Nat
  rowVa : Nat
  elt : Nat

/-- The row and element of an address in a block under a descriptor. -/
def rotIn (va : Nat) (b : Block1) (ea : Nat) : RotAt :=
  let off := ea - va
  ⟨va, b, off / b.rowBytes, va + off / b.rowBytes * b.rowBytes, off % b.rowBytes / typeBytes b.fmt⟩

/-- The row and element of an address in an ALLOCATED block with a float format; none gives NOT_MAPPED (R200, R340). -/
def Ctx.rotAt (c : Ctx) (ea : Nat) : Option RotAt :=
  match c.allocAt ea with
  | some (va, _, b) => if 4 < b.fmt then none else some (rotIn va b ea)
  | none => none

/-- Address of element i of the row. -/
def RotAt.addr (r : RotAt) (i : Nat) : Nat := r.rowVa + i * typeBytes r.blk.fmt

/-- The other element a ldrot lane reads: its partner, or its successor where it passes unrotated (R200). -/
def RotAt.other (r : RotAt) (f : Freq) : Option Nat :=
  match f.place (r.blk.dm1 + 1) r.elt with
  | some (_, j, _) => some j
  | none => if r.elt + 1 < r.blk.dm1 + 1 then some (r.elt + 1) else none

/-- The row and element of a ldrot lane of a team's context. -/
def State.rotAt (s : State) (asid ea : Nat) : Option RotAt := (dget s.ctxs asid).bind fun c => c.rotAt ea

/-- The frequency table of a context; before arming it is the reset value of R84: one pair, of frequency 0 (log 6). -/
def State.freqOf (s : State) (asid : Nat) : Freq := ((dget s.ctxs asid).map Ctx.freq).getD ⟨false, [0]⟩

/-- The addresses an access reads or writes: one, and for ldrot the other element's as well. -/
def State.accessAddrs (s : State) (asid : Nat) (k : AccKind) (ea : Nat) : List Nat :=
  if k == .rot then
    match s.rotAt asid ea with
    | some r => ea :: ((r.other (s.freqOf asid)).map r.addr).toList
    | none => [ea]
  else [ea]

/-- The bytes of both words a ldrot lane delivers, from a reading of the row's elements (R200, R201). -/
def RotAt.words (r : RotAt) (f : Freq) (elem : Nat → Nat) : List Byte :=
  let p := r.blk.pb + BitVec.ofNat 64 r.row
  let w := ldrotWords f (r.blk.dm1 + 1) r.blk.fmt r.elt p elem
  leBytes 4 w.1.toNat ++ leBytes 4 w.2.toNat

/-- The words of a ldrot lane as its team reads them now. -/
def State.rotRead (s : State) (t : Team) (ea : Nat) : List Byte :=
  match s.rotAt t.asid ea with
  | some r => r.words (s.freqOf t.asid) fun i => leNat (s.tbytes t (r.addr i) (typeBytes r.blk.fmt))
  | none => []

/-- The cause one access of an operation meets (R194, R200): the highest over the addresses it reads or writes, and
for ldrot its block and its alignment. -/
def State.accessCause (s : State) (asid : Nat) (mode : Mode) (k : AccKind) (ea : Nat) : Nat :=
  let column := if k.isPorter then Page.porterCause else Page.coreCause
  let base := (s.accessAddrs asid k ea).foldl (fun c a => max c (s.causeBy column asid mode a k.acc)) 0
  if k == .rot then
    match s.rotAt asid ea with
    | some r => if ea % typeBytes r.blk.fmt = 0 then base else causeMisaligned
    | none => max base causeNotMapped
  else base

/-! ### One access at its home slice (R251, R256, R355) -/

/-- Change one access of an operation. -/
def Op.modUnit (o : Op) (i : Nat) (f : Access → Access) : Op :=
  match o.work with
  | .mem m => { o with work := .mem { m with units := m.units.modify i f } }
  | _ => o

/-- Change one access of an operation in flight. -/
def State.modUnit (s : State) (id i : Nat) (f : Access → Access) : State :=
  { s with flight := dmod s.flight id fun o => o.modUnit i f }

/-- The new value of an atomic (R208): sub-operation, width in bytes, old value, operand (for a compare-and-swap the
compare value and the swap value). Number 11 is the counter step of R122, which only the device sends (log 12). -/
def atomNew (k n old x y : Nat) : Nat :=
  let w := 8 * n
  let sg (v : Nat) : Int := if v.testBit (w - 1) then (v : Int) - (2 ^ w : Nat) else v
  match k with
  | 0 => (old + x) % 2 ^ w
  | 1 => if sg x < sg old then x else old
  | 2 => min old x
  | 3 => if sg old < sg x then x else old
  | 4 => max old x
  | 5 => old &&& x
  | 6 => old ||| x
  | 7 => old ^^^ x
  | 8 => x
  | 9 => (fadd32 .rne false (BitVec.ofNat 32 old) (BitVec.ofNat 32 x)).toNat
  | 11 => (old + x) % 2 ^ w ||| 2 ^ (w - 1)
  | _ => if old = x then y else old

/-- What an access reads and then writes, given the bytes at its location: the bytes read, and the bytes to write if it
writes. -/
def accessEffect (k : AccKind) (u : Access) (old : List Byte) : List Byte × Option (List Byte) :=
  match k with
  | .load => (old, none)
  | .rot => (old, none)
  | .pref => ([], none)
  | .pread => (old, none)
  | .pwrite => ([], some u.data)
  | .store => ([], some u.data)
  | .storeNt => ([], some u.data)
  | .atomic k =>
    let o := leNat old
    let x := leNat (u.data.take u.n)
    let y := leNat (u.data.drop u.n)
    let new := atomNew k u.n o x y
    -- a failing compare-and-swap writes nothing (R209)
    if k = 10 && o ≠ x then (old, none) else (old, some (leBytes u.n new))

/-- What a load leaves in the L1 of its core for the line of an address: with pol 0 the line is filled, otherwise it leaves
(R196, R230). -/
def State.loadL1 (s : State) (t : Team) (pol slot va : Nat) : State :=
  let a := s.spaceOf t.asid va
  if pol == 0 then s.fillL1 t.core a va slot
  else s.dropL1 t.core fun l => l.asid == a && l.va == va / 64 * 64

/-- The team a sector of a declared region is granted to, by an access of a team (R355). -/
def State.grantOf (s : State) (asid va tid : Nat) : Option Nat := if (s.regionAt asid va).isSome then some tid else none

/-- The addresses an access reads or writes touch their sectors, each on its own page (R271, R268). -/
def State.touchAddrs (s : State) (tid : Nat) (t : Team) (write : Bool) (pol : CachePol) (addrs : List Nat) : State :=
  addrs.foldl (fun s va =>
    match s.pageAt t.asid va with
    | some (a, b, p) => (s.touchSector (clusterOf t.core) a va p (p.key b va) write pol (s.grantOf t.asid va tid)).reach a b
    | none => s) s

/-- An access of the device itself, by an agent of a cluster, at a sector of a page that holds it: it uses the cluster's cache, and
touches no hoop (R208, R268, R271). -/
def State.deviceTouch (s : State) (cl asid va space base : Nat) (p : Page) (write : Bool) : State :=
  let granted := if (s.regionAt asid va).isSome then some 0 else none
  (s.touchSector cl space va p (p.key base va) write ⟨true, false⟩ granted).reach space base

/-- Perform a permitted access: read (through the version), then write to memory or into the version. None where the
version has no room: then the state is what R362 makes of it, and the access is held. -/
def State.perform (s : State) (id i : Nat) (o : Op) (m : MemWork) (u : Access) (tid : Nat) (t : Team) : State :=
  let a := s.spaceOf t.asid u.addr
  let old := s.tbytes t u.addr u.n
  let kind := m.kindOf u
  let eff := accessEffect kind u old
  let got := if kind == .rot then s.rotRead t u.addr else eff.1
  let new := eff.2
  let done (s : State) : State := s.modUnit id i fun u => { u with st := .done, got := got }
  let waits := s.overflows tid || s.pk.tokenHolder == some tid
  -- a held sector that enters the version withdraws the request for the token (R362)
  let enter (s : State) : State := s.modTeam tid fun t =>
    { t with ver := { t.ver.write a u.addr (eff.2.getD []) with
        tokenWait := t.ver.tokenWait && (waits || u.st != .held) } }
  match s.pageAt t.asid u.addr with
  | none => s
  | some (_, b, p) =>
    let key := p.key b u.addr
    let addrs := s.accessAddrs t.asid kind u.addr
    let s1 := s.touchAddrs tid t (new.isSome && !t.forming) m.cachePol addrs
    match new with
    | some bs =>
      if t.forming then
        if t.ver.holds a u.addr then
          done (enter s1)
        else
          match s.roomFor tid t 64 true with
          | some s' => s'.modUnit id i fun u => { u with st := .held }
          | none => done (enter (s1.cacheRoom (clusterOf t.core) none))
      else
        let s2 := { s1 with mem := s1.mem.writeN key bs }
        let s3 := if kind == .storeNt || kind == .pwrite then s2.dropL1 t.core fun l => l.asid == a && l.va == u.addr / 64 * 64
          else s2.storeL1 t.core a u.addr bs
        done s3
    | none =>
      let slot := ((dget s.groups o.group).map Group.slot).getD 0
      -- a compare-and-swap that fails leaves in a line that is present the bytes it has read (R230)
      done (match kind with
        | .load => s1.loadL1 t m.pol slot u.addr
        | .rot => addrs.foldl (fun s va => s.loadL1 t m.pol slot va) s1
        | .atomic _ => s1.storeL1 t.core a u.addr (s.mem.readN key u.n)
        | _ => s1)

/-- The bytes of two accesses overlap. -/
def Access.overlaps (u v : Access) : Bool := u.addr < v.addr + v.n && v.addr < u.addr + u.n

/-- The address and bytes of an access held at a page. -/
def State.waiterAt (s : State) (w : Waiter) : Option (Nat × Nat) :=
  match w with
  | .touch op i =>
    match (dget s.flight op).map Op.work with
    | some (.mem m) => (m.units[i]?).map fun u => (u.addr, u.n)
    | _ => none
  | .counter k => (dget s.kernels k).map fun k => (k.field 191 128, 8)
  | .inbound port tag =>
    ((s.port port).inb.find? fun q => q.tag == tag).bind fun q =>
      (dget s.pk.windows q.window).map fun x => (x.base + q.offset, max 1 q.data.length)
  | .xfer _ va => some (va, 64)
  | .wback va => some (va, 64)

/-- Some other access of the sectors of a range is held at a page (R263). -/
def State.sectorHeld (s : State) (p : Page) (va n : Nat) : Bool :=
  p.hold.any fun w =>
    match s.waiterAt w with
    | some (x, k) => x / 64 ≤ (va + n - 1) / 64 && va / 64 ≤ (x + k - 1) / 64
    | none => false

/-- An access of a page on the move is held behind the copy: a write, or a read of a sector that has a held access (R256,
R263). -/
def State.holds (s : State) (p : Page) (writes : Bool) (va n : Nat) : Bool :=
  (p.st == .migrating || p.st == .evicting) && (writes || s.sectorHeld p va n)

/-- An access enters the hold queue of a page (R263). -/
def State.holdAt (s : State) (asid base : Nat) (w : Waiter) : State :=
  s.modPage asid base fun p => { p with hold := if p.hold.contains w then p.hold else p.hold ++ [w] }

/-- A request sets out over a port, or none where the port does not serve (R397, R398). -/
def State.sendRequest (s : State) (port window offset : Nat) (kind : ReqKind) (data : List Byte) (purpose : ReqFor) :
    Option (State × Nat) :=
  let x := s.port port
  if x.st == .up || x.st == .degraded then
    let x1 := { x with
      out := x.out ++ [⟨x.nextTag, s.pk.gts, kind, window, offset, data, purpose⟩], nextTag := x.nextTag + 1,
      sent := x.sent + 1 }
    some ({ s with ports := dset s.ports port x1 }, x.nextTag)
  else none

/-- A request to where a page's locator points, for `o` bytes into the page (R256, R257). -/
def State.sendTo (s : State) (p : Page) (o : Nat) (kind : ReqKind) (data : List Byte) (purpose : ReqFor) :
    Option (State × Nat) :=
  match p.loc with
  | .window port window offset => s.sendRequest port window (offset + p.locOff + o) kind data purpose
  | .slow store port => s.sendRequest port 0 (store + p.locOff + o) kind data purpose
  | _ => none

/-- A request for a purpose is in flight. -/
def State.asked (s : State) (f : ReqFor) : Bool := s.ports.any fun e => e.2.out.any fun q => q.purpose == f

/-- The port of a window page carries requests now (R398). -/
def State.serving (s : State) (p : Page) : Bool :=
  match p.loc with
  | .window port _ _ => (s.port port).st == .up || (s.port port).st == .degraded
  | _ => true

/-- What a kind of access asks of a peer. -/
def AccKind.req (k : AccKind) : ReqKind :=
  match k with
  | .atomic n => .atomic (BitVec.ofNat 4 n)
  | _ => if k.acc.writes then .write else .read

/-- A link request for an access to a page of a peer, or of the slow tier (R256, R265, R397), or REMOTE_TIMEOUT where
the port is not serving (R398). -/
def State.sendAccess (s : State) (id i : Nat) (k : AccKind) (u : Access) (b : Nat) (p : Page) : State :=
  match s.sendTo p (u.addr - b) k.req (if k.acc.writes then u.data else leBytes u.n 0) (.access id i) with
  | some (s1, tag) => s1.modUnit id i fun u => { u with req := some tag }
  | none => s.modUnit id i fun u => { u with st := .failed causeRemoteTimeout }

/-- A ldrot lane of which an element stands with a peer reads its elements one after the other: one at hand now, another over the
link; when it has them all it is served, by the descriptor it was bound to at the first (R200, R340, R397). -/
def State.rotElems (s : State) (id i tid : Nat) (t : Team) (m : MemWork) (slot ea va : Nat) (blk : Block1) : List Nat → State
  | [] =>
    let es := typeBytes blk.fmt
    let r := rotIn va blk ea
    s.modUnit id i fun u =>
      let elem (j : Nat) : Nat := leNat (if j == r.elt then u.data.take es else (u.data.drop es).take es)
      { u with st := .done, req := none, got := r.words (s.freqOf t.asid) elem }
  | a :: as =>
    let es := typeBytes blk.fmt
    let c := s.causeAt t.asid t.mode a .read
    match s.pageAt t.asid a with
    | none => s.modUnit id i fun u => { u with st := .failed causeNotMapped, req := none }
    | some (_, b, p) =>
      if c == causeNotPresent then s.modUnit id i fun u => { u with st := .pending, req := none, data := [], desc := none }
      else if c != 0 then s.modUnit id i fun u => { u with st := .failed c, req := none }
      else if p.st == .remote then
        match s.sendTo p (a - b) .read (leBytes es 0) (.access id i) with
        | some (s1, tag) => s1.modUnit id i fun u => { u with req := some tag }
        | none => s.modUnit id i fun u => { u with st := .failed causeRemoteTimeout, req := none }
      else
        let s1 := (s.touchAddrs tid t false m.cachePol [a]).loadL1 t m.pol slot a
        State.rotElems (s1.modUnit id i fun u => { u with data := u.data ++ s.tbytes t a es }) id i tid t m slot ea va blk as

/-- A ldrot lane goes on from the elements it has (R200). -/
def State.rotStep (s : State) (id i : Nat) (o : Op) (m : MemWork) (t : Team) (u : Access) : State :=
  let slot := ((dget s.groups o.group).map Group.slot).getD 0
  match u.desc with
  | none => s.modUnit id i fun u => { u with st := .failed causeNotMapped, req := none }
  | some (va, blk) =>
    let r := rotIn va blk u.addr
    let addrs := u.addr :: ((r.other (s.freqOf t.asid)).map r.addr).toList
    s.rotElems id i o.team t m slot u.addr va blk (addrs.drop (u.data.length / typeBytes blk.fmt))

/-- The remote budget of a context now, in thousandths of a byte (R265). -/
def Ctx.budgetNow (c : Ctx) (gts : Nat) : Nat := min 65536000 (c.budget + c.remoteBw * (gts - c.budgetAt))

/-- Another access of an operation has read a sector in place: what is cut in pieces is one sector (R229, R265). -/
def State.readBefore (s : State) (id i va : Nat) : Bool :=
  match (dget s.flight id).map Op.work with
  | some (.mem m) => (m.units.zipIdx).any fun x => x.2 != i && x.1.slow && x.1.half == 0 && x.1.addr / 64 == va / 64
  | _ => false

/-- A porter's read of a page in the slow tier (R265): each sector takes 64 B of the budget, or waits, and warms the page
(R266). -/
def State.readInPlace (s : State) (id i : Nat) (u : Access) (ctx a b : Nat) (p : Page) : State :=
  match dget s.ctxs ctx with
  | none => s
  | some c =>
    let again := s.readBefore id i u.addr
    if p.hostlock || (!again && c.budgetNow s.pk.gts < 64000) then s.modUnit id i fun u => { u with st := .held }
    else
      let s0 := s.modUnit id i fun u => { u with slow := true }
      let s1 := if again then s0
        else (s0.modCtx ctx fun c => { c with budget := c.budgetNow s.pk.gts - 64000, budgetAt := s.pk.gts }).modPage a b fun p =>
          { p with heat := p.heat + 1, due := p.due || p.heat + 1 == 16 }
      s1.sendAccess id i .pread u b p

/-- A touch that was held finds its page gone when it is served: it stays held at its slice, which raises the page's record
itself (R355). -/
def State.absentCore (s : State) (id i : Nat) (t : Team) (u : Access) (acc : AccType) (va a b : Nat) (p : Page) :
    State :=
  let s1 := (s.modUnit id i fun u => { u with st := .held }).modPage a b fun p =>
    { p with waiters := p.waiters ++ [.touch id i] }
  { s1 with mp := { s1.mp with faults := s1.mp.faults ++
      [(pageId a b, ⟨t.core, t.lid, false, causeNotPresent, 2 ^ acc.bit, p.sc, t.asid, 2 ^ u.lane, s.pk.gts, va⟩)] } }

/-- An access of a core finds, after its issue, that its page is not present: it parks at the core, with a record through the
sieve, until the page's wake, and translates afresh then; a full sieve leaves it where it stands (R258, R261, R264, log 18). -/
def State.parkAccess (s : State) (id i : Nat) (o : Op) (t : Team) (u : Access) (acc : AccType) (va a b : Nat) (p : Page) :
    State :=
  let page := pageId a b
  let known : Bool := match o.work with
    | .mem m => m.units.any fun v => v.st == .parked page
    | _ => false
  if known then s.modUnit id i fun u => { u with st := .parked page }
  else if 32 ≤ (s.core t.core).sieve.length then s
  else
    (s.modUnit id i fun u => { u with st := .parked page }).toSieve t.core o.group (id - 1)
      [(page, ⟨t.core, t.lid, false, causeNotPresent, 2 ^ acc.bit, p.sc, t.asid, 2 ^ u.lane, s.pk.gts, va⟩)]

/-- An access of a porter command meets a page that is not present: one record per page through the core's sieve, and the
command waits for it (R305). -/
def State.absentPorter (s : State) (id i : Nat) (o : Op) (t : Team) (acc : AccType) (va a b : Nat) (p : Page) : State :=
  let page := pageId a b
  let known := (s.core t.core).porter.any fun c => c.op == id && c.pages.contains page
  let s1 := s.modUnit id i fun u => { u with st := .held }
  if known then s1
  else
    (s1.modCore t.core fun c =>
      { c with porter := c.porter.map fun x => if x.op == id then { x with pages := x.pages ++ [page] } else x }).toSieve
        t.core o.group id
        [(page, ⟨t.core, t.lid, false, causeNotPresent, 2 ^ acc.bit, p.sc, t.asid, o.mask.toNat, s.pk.gts, va⟩)]

/-- The touches of an access at the granules of declared regions it reaches, one after the other (R355). -/
def State.touchAll (s : State) (tid : Nat) (t : Team) (ref : Nat × Nat) : List Nat → Touch
  | [] => .served s
  | a :: as =>
    match s.regionAt t.asid a with
    | none => State.touchAll s tid t ref as
    | some (_, rg) =>
      match s.touch tid t rg a ref with
      | .held s1 => .held s1
      | .served s1 => State.touchAll s1 tid t ref as

/-- Where an access of a team at an address waits behind the copy of its page: not where its cluster's cache serves it (R251, R256,
R263). -/
def State.heldAt (s : State) (tid : Nat) (t : Team) (acc : AccType) (va n : Nat) : Option (Nat × Nat) :=
  match s.pageAt t.asid va with
  | none => none
  | some (a, b, p) =>
    let cached := (s.cluster (clusterOf t.core)).holdsSector a (va / 64 * 64) (s.grantOf t.asid va tid)
    if s.holds p acc.writes va n && (!cached || (t.forming && acc.writes)) then some (a, b) else none

/-- HOME SLICE: one global access of an operation is translated and decided (R251, R256, R355): it fails, waits for its
page, is held behind a copy, or is a touch that waits; otherwise it goes over the link, is served in place, or is performed. -/
def State.sliceAccess (s : State) (id i : Nat) : State :=
  match dget s.flight id with
  | none => s
  | some o =>
    match o.work, dget s.teams o.team with
    | .mem m, some t =>
      match m.units[i]? with
      | none => s
      | some u =>
        let kind := m.kindOf u
        let acc := kind.acc
        let c := s.accessCause t.asid t.mode kind u.addr
        let addrs := s.accessAddrs t.asid kind u.addr
        let fail (c : Nat) : State := s.modUnit id i fun u => { u with st := .failed c }
        if c == causeNotPresent then
          let va := if kind.isPorter then u.addr
            else (addrs.find? fun a => s.causeAt t.asid t.mode a acc == c).getD u.addr
          match s.pageAt t.asid va with
          | none => fail causeNotMapped
          | some (a, b, p) =>
            if kind.isPorter then s.absentPorter id i o t acc va a b p
            else if u.st == .held && (s.regionAt t.asid va).isSome then s.absentCore id i t u acc va a b p
            else s.parkAccess id i o t u acc va a b p
        else if c != 0 then fail c
        else
          match s.pageAt t.asid u.addr with
          | none => fail causeNotMapped
          | some (a, b, p) =>
            match addrs.findSome? fun x => s.heldAt o.team t acc x (if kind == .rot then 4 else u.n) with
            | some (a, b) => (s.modUnit id i fun u => { u with st := .held }).holdAt a b (.touch id i)
            | none =>
              match s.touchAll o.team t (id, i) addrs with
              | .held s1 => s1.modUnit id i fun u => { u with st := .held }
              | .served s1 =>
                if kind == .rot && addrs.any (fun x => ((s1.pageAt t.asid x).map fun e => e.2.2.st == .remote).getD false) then
                  let bound := (s1.rotAt t.asid u.addr).map fun r => (r.va, r.blk)
                  (s1.modUnit id i fun u => { u with desc := bound, data := [] }).rotStep id i o m t
                    { u with desc := bound, data := [] }
                else if p.st == .remote && p.back == 2 then s1.sendAccess id i kind u b p
                else if p.st == .remote || p.st == .faulting || p.st == .promoting then s1.readInPlace id i u t.asid a b p
                else s1.perform id i o m u o.team t
    | _, _ => s

/-- Run several accesses at their slices, in order. -/
def State.sliceAll (s : State) (refs : List (Nat × Nat)) : State := refs.foldl (fun s r => s.sliceAccess r.1 r.2) s

end Sys2Proof.Machine
end

