-- ==== Sys2Proof/Machine/Memory.lean ====
section
/-!
DEFINITION. Class 3: loads, stores, atomics, drain, cinv, seal and unseal (10_memory_control_instructions.md R192 to
R211), fault parking (08_groups.md R143, R144), and the steps that perform and complete them.
-/
namespace Sys2Proof.Machine

/-! ### Bytes of an access (R193, R208, R209) -/

/-- Bytes of a lane's access by the size code (R193). -/
def sizeBytes (z : BitVec 3) : Nat :=
  match z.toNat with
  | 0 => 1
  | 1 => 2
  | 2 => 4
  | 3 => 8
  | 4 => 16
  | 5 => 1
  | _ => 2

/-- `n` bytes of a lane's consecutive registers from `d` on. -/
def Group.laneBytes (g : Group) (d l n : Nat) : List Byte :=
  ((List.range ((n + 3) / 4)).flatMap fun i => leBytes 4 (g.vreg (d + i) l).toNat).take n

/-- The 32-bit parts a load delivers (R193). -/
def loadWords (z : Nat) (bs : List Byte) : List Word :=
  let v := leNat bs
  match z with
  | 3 => [BitVec.ofNat 32 v, BitVec.ofNat 32 (v / 2 ^ 32)]
  | 4 => (List.range 4).map fun i => BitVec.ofNat 32 (v / 2 ^ (32 * i))
  | 5 => [(BitVec.ofNat 8 v).signExtend 32]
  | 6 => [(BitVec.ofNat 16 v).signExtend 32]
  | _ => [BitVec.ofNat 32 v]

/-- The scalar a ldgu delivers (R199). -/
def loadScalar (z : Nat) (bs : List Byte) : DWord :=
  let v := leNat bs
  match z with
  | 5 => (BitVec.ofNat 8 v).signExtend 64
  | 6 => (BitVec.ofNat 16 v).signExtend 64
  | _ => BitVec.ofNat 64 v

/-! ### Order among operations (R198, R210, R230, R231) -/

/-- Every access of the operation is performed or has its cause. -/
def MemWork.isOver (m : MemWork) : Bool :=
  m.units.all fun u =>
    match u.st with
    | .done => true
    | .failed _ => true
    | .gone => true
    | _ => false

/-- An operation counts as performed. -/
def State.performed (s : State) (id : Nat) : Bool :=
  match dget s.flight id with
  | some o =>
    match o.work with
    | .mem m => m.isOver
    | _ => true
  | none => true

/-- An atomic with an acquire side (R210). -/
def MemWork.acquires (m : MemWork) : Bool := (match m.kind with | .atomic _ => true | _ => false) && m.ord % 2 == 1

/-- The chandler operations that are acquires: sklook (R346) and refdec (R242), by their numbers in Chandler.lean. -/
def chandlerAcquires (op : Nat) : Bool := op == 4 || op == 10

/-- What the fences of a group with an acquire side still wait for: accesses that other splits issue meanwhile come after it
too (R212, R231). -/
def Group.fencing (g : Group) : List Nat :=
  g.splits.flatMap fun sp =>
    match sp.st with
    | .blocked (.fence o _ ops) => if o % 2 == 1 then ops else []
    | _ => []

/-- Acquires of a group still in flight: later accesses, from any split, wait for them (R207, R210, R212, R231, R234). -/
def State.acquiring (s : State) (gid : Nat) : List Nat :=
  (s.flight.filterMap fun e =>
    match e.2.work with
    | .mem m => if e.2.group == gid && m.acquires then some e.1 else none
    | .chandler op _ _ => if e.2.group == gid && chandlerAcquires op then some e.1 else none
    | .seal isUnseal _ _ _ => if e.2.group == gid && isUnseal then some e.1 else none
    | _ => none) ++ ((dget s.groups gid).map Group.fencing).getD []

/-- The group's earlier accesses that a release performs first: all but the non-temporal stores (R210, R202). -/
def State.releasable (s : State) (gid : Nat) : List Nat :=
  s.flight.filterMap fun e =>
    match e.2.work with
    | .mem m => if e.2.group == gid && m.kind != .storeNt && !m.kind.isPorter && !m.isOver then some e.1 else none
    | _ => none

/-- The access is still to be performed. -/
def Access.waits (u : Access) : Bool :=
  match u.st with
  | .pending => true
  | .held => true
  | .parked _ => true
  | _ => false

/-- The core and offset of a cluster scratchpad address, for a core of the same cluster (R38). -/
def remoteAt (core ea : Nat) : Nat × Nat := (clusterOf core * 64 + ea / 2 ^ 21, ea % 2 ^ 21)

/-- Storage address of a scratchpad access of a team. -/
def Team.scratchAt (t : Team) (sp : Space) (a : Nat) : Nat :=
  match sp with
  | .remote => scratchKey (remoteAt t.core a).1 (remoteAt t.core a).2
  | _ => scratchKey t.core (t.wbase + a)

/-- The locations of an access of a team (R228), as ranges of numbers: of a space of addresses, or of a scratchpad, whichever
way it is named (R38); a ldrot has the locations of both its elements. -/
def State.placesOf (s : State) (t : Team) (m : MemWork) (u : Access) : List (Nat × Nat) :=
  match m.space with
  | .global =>
    let es := if m.kind == .rot then 4 else u.n
    (s.accessAddrs t.asid m.kind u.addr).map fun a => (2 ^ 128 + s.spaceOf t.asid a * 2 ^ 64 + a, es)
  | sp => [(t.scratchAt sp u.addr, u.n)]

/-- Two lists of ranges meet at a byte. -/
def rangesMeet (xs ys : List (Nat × Nat)) : Bool := xs.any fun x => ys.any fun y => x.1 < y.1 + y.2 && y.1 < x.1 + x.2

/-- An access of an operation meets one of an earlier operation at a byte, and the earlier one comes first: that of a porter
command does not (R230, R239). -/
def State.meets (s : State) (t : Team) (m : MemWork) (u : Access) (t' : Team) (m' : MemWork) (v : Access) : Bool :=
  !m'.kind.isPorter && rangesMeet (s.placesOf t m u) (s.placesOf t' m' v)

/-! ### Scratchpad windows (R38) -/

/-- The window of a placed team of the context that holds n bytes at an offset of a core's scratchpad (R38). -/
def State.windowAt (s : State) (asid core off n : Nat) : Bool :=
  s.teams.any fun e =>
    e.2.asid == asid && e.2.core == core && e.2.windowIn && e.2.st != .retired && e.2.wbase ≤ off
      && off + n ≤ e.2.wbase + e.2.wsize

/-- The cause of a remote access, or 0 (R38). -/
def State.remoteCause (s : State) (asid core ea n : Nat) : Nat :=
  let (c, off) := remoteAt core ea
  if ea < 2 ^ 27 && off + n ≤ Config.scratchBytes && s.windowAt asid c off n then 0 else causeScratch

/-! ### Scopes (R232 to R236, log 50)

An operation of a scope narrower than the device orders nothing towards an agent outside its instance. A release of such a scope may
be performed while accesses that it covers are still to come: they get a mark, and from then on every access of the instance that
conflicts with one of them comes after it, and so does every release of a wider scope by an agent of the instance. An acquire of
such a scope may be passed by accesses after it that do not synchronise themselves: from then on every atomic of the instance that
it could read from comes after it. -/

/-- Two groups lie in one instance of a scope (R232). -/
def State.sameScope (s : State) (scope g h : Nat) : Bool :=
  match dget s.groups g, dget s.groups h with
  | some x, some y =>
    match scope with
    | 0 => g == h
    | 1 => x.team == y.team
    | 2 => x.core == y.core
    | 3 => clusterOf x.core == clusterOf y.core
    | _ => true
  | _, _ => true

/-- The operation is an atomic. -/
def MemWork.isAtomic (m : MemWork) : Bool :=
  match m.kind with
  | .atomic _ => true
  | _ => false

/-- An atomic with a release side (R210). -/
def MemWork.releases (m : MemWork) : Bool := m.isAtomic && m.ord.testBit 1

/-- An atomic of both sides, which joins the order of R236. -/
def MemWork.both (m : MemWork) : Bool := m.isAtomic && m.ord == 3

/-- The accesses synchronise nothing themselves and are not a porter's (R233). -/
def MemWork.relaxed (m : MemWork) : Bool := !m.kind.isPorter && (!m.isAtomic || m.ord == 0)

/-- The writes of a team whose version is forming concern that team alone (R244). -/
def Team.unseen (t : Team) (m : MemWork) (u : Access) (t' : Team) : Bool :=
  t.forming && (t.kernel, t.lid) != (t'.kernel, t'.lid) && (m.kindOf u).acc.writes && m.space == .global

/-- Two accesses conflict: they meet at a byte, one of them writes, and each is seen by the other's team. -/
def State.conflict (s : State) (t : Team) (m : MemWork) (u : Access) (t' : Team) (m' : MemWork) (v : Access) : Bool :=
  ((m.kindOf u).acc.writes || (m'.kindOf v).acc.writes) && !t.unseen m u t' && !t'.unseen m' v t
    && rangesMeet (s.placesOf t m u) (s.placesOf t' m' v)

/-- The first mark of an operation at a scope that holds a group, by its number. -/
def State.markFor (s : State) (o : Op) (h : Nat) : Option Nat :=
  (o.marks.filter fun k => s.sameScope k.2 o.group h).foldl (fun b k => some (min k.1 (b.getD k.1))) none

/-- The number from which on no mark holds an operation: its own mark for a group, or that it has been passed, whichever came
first. -/
def State.placeFor (s : State) (o : Op) (h : Nat) : Option Nat :=
  match o.passed, s.markFor o h with
  | some a, some b => some (min a b)
  | some a, none => some a
  | none, b => b

/-- Every access to come of an operation conflicts with none marked for its group earlier than it is itself. -/
def State.unmarked (s : State) (o : Op) (t : Team) (m : MemWork) (u : Access) : Bool :=
  s.flight.all fun e =>
    match e.2.work, dget s.teams e.2.team with
    | .mem m', some t' =>
      match s.markFor e.2 o.group with
      | none => true
      | some k =>
        ((s.placeFor o e.2.group).any fun j => j ≤ k) || m'.units.all fun v => !(v.waits && s.conflict t m u t' m' v)
    | _, _ => true

/-- The operations left behind that a release of a scope by a group comes after: those with a mark of a narrower scope that holds the
group (R235). -/
def State.markedIn (s : State) (gid scope : Nat) : List Nat :=
  s.flight.filterMap fun e =>
    match e.2.work, dget s.teams e.2.team, (dget s.groups gid).map Group.team with
    | .mem m, some t, tid =>
      if !m.isOver && (e.2.marks.any fun k => k.2 < scope && s.sameScope k.2 e.2.group gid)
          && !(t.forming && tid != some e.2.team && m.kind.acc.writes && m.space == .global) then some e.1
      else none
    | _, _, _ => none

/-- The accesses that a release of a group at device scope covers: its own, and those left behind in its instances (R234, R235). -/
def State.covered (s : State) (gid : Nat) : List Nat := s.releasable gid ++ s.markedIn gid 4

/-- An atomic waits for an acquire that has been passed: one whose instance it lies in and that could read from it, or comes before it
in the order of R236 (R234, R236). -/
def State.yields (s : State) (id : Nat) (o : Op) (t : Team) (m : MemWork) (u : Access) : Bool :=
  m.isAtomic && s.flight.any fun e =>
    e.1 != id && e.2.passed.isSome &&
      match e.2.work, dget s.teams e.2.team with
      | .mem m', some t' =>
        s.sameScope m'.scope e.2.group o.group && m'.units.any fun v =>
          v.waits && v.st != .held
            && ((m.both && m'.both && m.scope == m'.scope) || rangesMeet (s.placesOf t m u) (s.placesOf t' m' v))
      | _, _ => false

/-- Nothing outside its group keeps an operation's accesses to come from being performed. -/
def State.unheld (s : State) (id : Nat) (o : Op) (t : Team) (m : MemWork) : Bool :=
  m.units.all fun u => !u.waits || (s.unmarked o t m u && !s.yields id o t m u)

/-- An access waits for no granule and for no room. -/
def State.unqueued (s : State) (t : Team) (m : MemWork) (u : Access) : Bool :=
  u.st != .held && (m.space != .global || (s.accessAddrs t.asid m.kind u.addr).all fun a => (s.regionAt t.asid a).isNone)

/-- A release or fence of a scope narrower than the device need not wait for an operation: its accesses to come synchronise nothing,
and nothing keeps them back but a page. -/
def State.leavable (s : State) (w : Nat) : Bool :=
  match dget s.flight w with
  | some o =>
    match o.work, dget s.teams o.team with
    | .mem m, some t =>
      m.relaxed && o.waits.all s.performed && s.unheld w o t m && m.units.all fun u => !u.waits || s.unqueued t m u
    | _, _ => false
  | none => true

/-- No group of a team is held in an order of accesses that its place gives: none of its operations, or of those of its instances, is
left behind, and none of its acquires has been passed (R157, R235, log 50). -/
def State.inOrder (s : State) (tid : Nat) : Bool :=
  ((s.groupsOf tid).all fun e => (s.markedIn e.1 4).isEmpty)
    && (s.opsOf tid).all fun e => e.2.passed.isNone || s.performed e.1

/-- Operations left behind by a release of a scope get its mark. -/
def State.leave (s : State) (ws : List Nat) (scope : Nat) : State :=
  let late := ws.filter fun w => !s.performed w
  if late.isEmpty then s
  else
    { s.bump with flight := s.flight.map fun e =>
        if late.contains e.1 then (e.1, { e.2 with marks := e.2.marks ++ [(s.nextId, scope)] }) else e }

/-- The lanes of one instruction come in ascending order where they write: the last store stays, and every atomic is applied
(R7, R208); loads of one instruction are unordered (R231). -/
def MemWork.laneOrder (m : MemWork) (i : Nat) (u : Access) : Bool :=
  !m.kind.acc.writes || (m.units.take i).all fun v => !(v.waits && u.overlaps v)

/-- An access may be performed but for the releases and acquires before its operation: every access before it in group order, or in a
lower lane, that meets it is over, and so is what marks and passed acquires put before it; for a release of device scope, all that
was left behind (R7, R208, R230, R232 to R236). -/
def State.mayStart (s : State) (id : Nat) (o : Op) (t : Team) (m : MemWork) (i : Nat) (u : Access) : Bool :=
  o.after.all (fun w =>
    match dget s.flight w with
    | some o' =>
      match o'.work with
      | .mem m' => m'.units.all fun v => !(v.waits && s.meets t m u t m' v)
      | _ => true
    | none => true)
    && m.laneOrder i u && s.unmarked o t m u && !s.yields id o t m u
    && (!m.releases || m.scope < 4 || (s.markedIn o.group 4).isEmpty)

/-- An access would be performed at once where it reaches its location: nothing there keeps it. -/
def State.atHand (s : State) (t : Team) (m : MemWork) (u : Access) : Bool :=
  u.st == .pending && u.req.isNone &&
    match m.space with
    | .window => t.windowIn
    | .remote => s.remoteCause t.asid t.core u.addr u.n == 0
    | .global =>
      match s.pageAt t.asid u.addr with
      | some (_, _, p) =>
        p.st == .resident && s.unqueued t m u && s.accessCause t.asid t.mode m.kind u.addr == 0
          && (!t.forming || t.ver.holds (s.spaceOf t.asid u.addr) u.addr)
      | none => false

/-- An acquire that later accesses may pass: of a scope narrower than the device, with nothing left that keeps it (R232). -/
def State.passable (s : State) (w : Nat) : Bool :=
  match dget s.flight w with
  | some o =>
    match o.work, dget s.teams o.team with
    | .mem m, some t =>
      m.acquires && m.scope < 4 && o.waits.all s.performed && (m.units.zipIdx).all fun x =>
        !x.1.waits || (s.atHand t m x.1 && s.mayStart w o t m x.2 x.1)
    | _, _ => false
  | none => false

/-- One of the operations that an access waits for stands in its way no more: it is over, or it has no access to come at the same
location and the scope of the one or the other lets it be passed (R210, R230, R232). -/
def State.passes (s : State) (t : Team) (m : MemWork) (u : Access) (w : Nat) : Bool :=
  match dget s.flight w with
  | none => true
  | some o' =>
    match o'.work with
    | .mem m' =>
      let apart := match dget s.teams o'.team with
        | some t' => m'.units.all fun v => !(v.waits && rangesMeet (s.placesOf t m u) (s.placesOf t' m' v))
        | none => true
      m'.isOver ||
        (apart && if m'.acquires then m.relaxed && s.passable w else m.releases && m.scope < 4 && s.leavable w)
    | .chandler .. => false
    | .seal .. => false
    | _ => true

/-- An access may be performed now: the releases and acquires before its operation are over or may be passed, and so on as mayStart
says (R7, R208, R210, R230 to R236). -/
def State.mayPerform (s : State) (id : Nat) (o : Op) (m : MemWork) (i : Nat) (u : Access) : Bool :=
  match dget s.teams o.team with
  | none => false
  | some t => o.waits.all (s.passes t m u) && s.mayStart id o t m i u

/-- What an access that is performed does to the operations before it: an acquire it passes keeps that, and a release of a narrow
scope leaves behind what it covers. -/
def State.ordered (s : State) (o : Op) (m : MemWork) : State :=
  let past := o.waits.filter fun w => !s.performed w
  if past.isEmpty && s.flight.all (fun e => e.2.marks.isEmpty) then s
  else if m.relaxed then
    if past.isEmpty then s
    else
      { s.bump with flight := s.flight.map fun e =>
          if past.contains e.1 then (e.1, { e.2 with passed := some (e.2.passed.getD s.nextId) }) else e }
  else if m.releases && m.scope < 4 then s.leave (past ++ s.markedIn o.group m.scope) m.scope
  else s

/-- Acquires that have been passed and could read from a write of the device are performed before it (R234, log 50). -/
def State.forcePassed (s : State) (here : List (Nat × Nat)) : State :=
  s.sliceAll (s.flight.flatMap fun e =>
    match e.2.work, dget s.teams e.2.team with
    | .mem m, some t =>
      if e.2.passed.isNone then []
      else ((m.units.zipIdx).filter fun x =>
        x.1.waits && x.1.st != .held && x.1.req.isNone && rangesMeet here (s.placesOf t m x.1)).map fun x => (e.1, x.2)
    | _, _ => [])

/-! ### Scratchpad accesses (R198, R208) -/

/-- Perform a scratchpad access (R198, R208). One of the team's own window waits while the window is copied out (R38, R158,
R247). -/
def State.scratchAccess (s : State) (id i : Nat) (o : Op) (m : MemWork) (u : Access) : State :=
  match dget s.teams o.team with
  | none => s
  | some t =>
    let cause := if m.space == .remote then s.remoteCause t.asid t.core u.addr u.n else 0
    if m.space != .remote && !t.windowIn then s
    else if cause != 0 then s.modUnit id i fun u => { u with st := .failed cause }
    else
      let key := t.scratchAt m.space u.addr
      let eff := accessEffect m.kind u (s.mem.readN key u.n)
      let s1 := match eff.2 with
        | some bs => { s with mem := s.mem.writeN key bs }
        | none => s
      s1.modUnit id i fun u => { u with st := .done, got := eff.1 }

/-! ### Issue of an FM instruction -/

/-- What an FM instruction asks for beyond its fields. -/
structure FmSpec where
  kind : AccKind
  space : Space
  fam : Family
  dc : Option Nat
  ret : Bool
  uniform : Bool
  /-- The bytes a lane carries. -/
  data : Nat → List Byte

/-- The pages an access of a team waits for: those it reaches that give PAGE_NOT_PRESENT. -/
def State.absentPages (s : State) (t : Team) (k : AccKind) (ea : Nat) : List Nat :=
  (s.accessAddrs t.asid k ea).filterMap fun a =>
    if s.causeAt t.asid t.mode a k.acc == causeNotPresent then
      (s.pageAt t.asid a).map fun e => pageId e.1 e.2.1
    else none

/-- The addresses of an access at which it meets its cause: for ldrot that may be its partner's (R200, R258, log 17). -/
def State.causeAddrs (s : State) (t : Team) (k : AccKind) (ea cause : Nat) : List Nat :=
  match (s.accessAddrs t.asid k ea).filter fun a => s.causeAt t.asid t.mode a k.acc == cause with
  | [] => [ea]
  | as => as

/-- An address stands in a page of a peer whose port does not serve (R398). -/
def State.linkDown (s : State) (asid va : Nat) : Bool :=
  ((s.pageAt asid va).map fun e => e.2.2.st == .remote && !s.serving e.2.2).getD false

/-- The cause of a lane's access at issue, or 0 (R194, R200, R202, R261); a request to a port that does not serve takes
REMOTE_TIMEOUT at once (R398). -/
def Run.laneCause (r : Run) (s : State) (f : FmSpec) (n ea : Nat) : Nat :=
  let mis := if f.kind != .rot && ea % n != 0 then causeMisaligned else 0
  let c :=
    match f.space with
    | .window => if ea + n ≤ r.t.wsize then 0 else causeScratch
    | .remote => s.remoteCause r.t.asid r.t.core ea n
    | .global =>
      let c := s.accessCause r.t.asid r.t.mode f.kind ea
      let c1 := if f.kind == .storeNt && r.t.versioned then max c causeMode else c
      if c1 == causeNotPresent then
        match (s.absentPages r.t f.kind ea).filterMap fun p => (r.sp.doom.find? fun d => d.1 == p).map Prod.snd with
        | [] => c1
        | d :: _ => d
      else if c1 == 0 && s.linkDown r.t.asid ea then causeRemoteTimeout
      else c1
  max mis c

/-- A team needs no decision of the home slice to read an address from the L1: outside declared regions, or in a granule that it
holds (R197, R355). -/
def State.needsNoTouch (s : State) (tid asid va : Nat) : Bool :=
  match s.regionAt asid va with
  | none => true
  | some (_, rg) =>
    let gb := rg.granuleBase va
    (((s.slice (homeOf asid gb)).hoop asid gb).map fun h => h.team == tid).getD false

/-- The bytes of a line of the L1 as a team reads them: its version's over those of the fill (R196, R197). -/
def Run.lineBytes (r : Run) (s : State) (va n : Nat) : Option (List Byte) :=
  let a := s.spaceOf r.t.asid va
  ((s.core r.t.core).line a va).map fun l =>
    (List.range n).map fun i => (r.t.ver.byteAt a (va + i)).getD (l.data.getD (va - l.va + i) 0)

/-- A load hits in the L1 at issue, where it waits for nothing before it, and reads the line as filled; a ldrot with both its elements
(R196, R197, R200, R230). -/
def Run.l1Hit (r : Run) (s : State) (m : Fm) (f : FmSpec) (ea n : Nat) : Option (List Byte) :=
  let addrs := s.accessAddrs r.t.asid f.kind ea
  if (f.kind == .load || f.kind == .rot) && f.space == .global && m.pol.toNat == 0
      && addrs.all (s.needsNoTouch r.tid r.t.asid) && (s.acquiring r.gid).isEmpty then
    let here := addrs.map fun va => (2 ^ 128 + s.spaceOf r.t.asid va * 2 ^ 64 + va, n)
    let waiting (o : Op) : Bool :=
      match o.work, dget s.teams o.team with
      | .mem m', some t' => m'.units.any fun v => v.waits && rangesMeet here (s.placesOf t' m' v)
      | _, _ => false
    let busy := r.sp.past.any fun w => ((dget s.flight w).map waiting).getD false
    let marked := s.flight.any fun e => !e.2.marks.isEmpty && waiting e.2
    if busy || marked then none
    else if f.kind == .rot then
      match s.rotAt r.t.asid ea with
      | none => none
      | some x =>
        let es := typeBytes x.blk.fmt
        if addrs.all fun va => (r.lineBytes s va es).isSome then
          some (x.words (s.freqOf r.t.asid) fun i => leNat ((r.lineBytes s (x.addr i) es).getD []))
        else none
    else r.lineBytes s ea n
  else none

/-- The accesses of one lane (R229: 16 bytes are two halves). -/
def Run.laneUnits (r : Run) (s : State) (m : Fm) (f : FmSpec) (n l ea : Nat) : List Access :=
  let unit (half n ea : Nat) (data : List Byte) : Access :=
    match r.l1Hit s m f ea n with
    | some bs => ⟨l, half, ea, n, data, bs, .done, none, none, false⟩
    | none => ⟨l, half, ea, n, data, [], .pending, none, none, false⟩
  if n = 16 then
    let d := f.data l
    [unit 0 8 ea (d.take 8), unit 1 8 (ea + 8) (d.drop 8)]
  else [unit 0 n ea (f.data l)]

/-- The sectors of global loads that miss in the L1 score lost locality (R153). -/
def Run.scoreMisses (r : Run) (s : State) (us : List Access) : State :=
  let secs := (us.filter fun u => u.st == .pending).foldl (fun ss u =>
    if ss.contains (u.addr / 64) then ss else ss ++ [u.addr / 64]) []
  secs.foldl (fun s x => s.missL1 r.gid r.t.core (s.spaceOf r.t.asid (x * 64)) (x * 64) r.g.slot) s

/-- Count a class 3 instruction of the context on the core; each 64th writes a MEMSAMPLE record (R387). -/
def Run.sample (r : Run) (s : State) (size kind va : Nat) : State :=
  let n := dgetD (s.core r.t.core).memCount r.t.asid 0 + 1
  let s1 := s.modCore r.t.core fun c => { c with memCount := dset c.memCount r.t.asid n }
  if n % 64 = 0 then s1.traceG r.g 4 size (kind * 2 ^ 62 + va % 2 ^ 57) else s1

/-- The kind code of a MEMSAMPLE record (R387). -/
def FmSpec.sampleKind (f : FmSpec) : Nat :=
  if f.space != .global then 3
  else
    match f.kind with
    | .atomic _ => 2
    | .store => 1
    | .storeNt => 1
    | _ => 0

/-- The operations a new access waits for: the acquires before it, and, as a release, the group's accesses (R210). -/
def Run.memWaits (r : Run) (s : State) (m : Fm) (f : FmSpec) : List Nat :=
  let acq := s.acquiring r.gid
  match f.kind with
  | .atomic _ => if m.pol.getLsbD 1 then acq ++ s.releasable r.gid else acq
  | _ => acq

/-- Add lanes with fatal causes to the group's faulted-lane set; a lane that is in it raises no second cause (R144, R376). -/
def Group.addFaults (g : Group) (cyc : Nat) (all : List LaneCause) : Group :=
  let cs := all.foldl (fun (l : List LaneCause) c =>
    if g.faulted.getLsbD c.lane || l.any fun d => d.lane == c.lane then l else l ++ [c]) []
  if cs.isEmpty then g
  else
    { g with faulted := g.faulted ||| maskOf (cs.map LaneCause.lane), causes := g.causes ++ cs,
             faultSince := some (g.faultSince.getD cyc) }

/-- Where the lanes that take PAGE_NOT_PRESENT go (R143): `all` are the split's lanes that have no fatal cause,
`absent` those that wait for `pages`. The group with its splits settled, and the mask and slot parked, if any. -/
def Run.park (r : Run) (g : Group) (all absent : LaneMask) (pages : List Nat) :
    Group × Option (LaneMask × Nat) :=
  let sp := { (g.split r.slot) with doom := [] }
  let ended (g : Group) : Group := { g with marked := 0, markedPages := [], saved := 0 }
  if absent == 0 then
    (ended (g.setSplit r.slot (if all == 0 then sp.freed else { sp with mask := all })), none)
  else if absent == all then
    (ended (g.setSplit r.slot { sp with st := .parked, mask := all, nxt := sp.pos, pages := pages }), some (absent, r.slot))
  else
    match g.freeSlot with
    | some j =>
      let p := { sp with st := .parked, mask := absent, nxt := sp.pos, pages := pages, skip := 0 }
      (ended ((g.setSplit r.slot { sp with mask := all &&& ~~~absent }).setSplit j p), some (absent, j))
    | none =>
      ({ (g.setSplit r.slot { sp with mask := all }) with
          marked := absent, markedSlot := r.slot, markedPages := pages, saved := 0 }, none)

/-- The lanes of the split once the instruction is over: during the replay of a group in FAULT_WAIT, all of the
split's, not only the marked ones (R143). -/
def Run.wholeMask (r : Run) : LaneMask :=
  if r.g.saved != 0 && r.g.markedSlot == r.slot then r.g.saved else r.act

/-- ISSUE OF A MEMORY INSTRUCTION (R194 to R210): causes are taken lane by lane, faulting lanes leave or park, and the
others' accesses start. -/
def Run.memIssue (r : Run) (s : State) (m : Fm) (f : FmSpec) : Out :=
  if r.full f.dc then r.stall s
  else
    let n := if f.kind == .rot then 4 else sizeBytes m.size
    let lanes := lanesOf r.act
    let ea := fun l => if f.uniform then (r.sx m.sbase + m.off.signExtend 64).toNat else (r.ea m l).toNat
    let first := ea (lanes.headD 0)
    let one := r.laneCause s f n first
    let cause := fun l => if f.uniform then one else r.laneCause s f n (ea l)
    let drop := f.kind == .pref
    let fatal := if drop then [] else lanes.filter fun l => 2 ≤ cause l
    let absent := if drop then [] else lanes.filter fun l => cause l == 1
    let ok := lanes.filter fun l => cause l == 0
    let recs := if f.space == .global then
        s.records r.t.core r.t f.kind.acc ((sortOn id (fatal ++ absent)).flatMap fun l =>
          if cause l ≤ 7 then (s.causeAddrs r.t f.kind (ea l) (cause l)).map fun a => (l, a, cause l) else [])
      else []
    if !absent.isEmpty && !s.sieveTakes r.t.core recs.length then r.stall s
    else
      let inst := s.nextId
      let cs := fatal.map fun l => (⟨l, cause l, ea l, r.sp.hdr, r.sp.pos + 1, r.word, inst⟩ : LaneCause)
      let g1 := r.g.addFaults (s.cyc1000 r.t.core) cs
      let pages := (absent.flatMap fun l => s.absentPages r.t f.kind (ea l)).eraseDups
      let (g2, parked) := r.park g1 (r.wholeMask &&& ~~~(maskOf fatal)) (maskOf absent) pages
      let s1 := (r.sample (if drop then s else s.toSieve r.t.core r.gid inst recs) m.size.toNat f.sampleKind first).bump
      let s2 := match parked with
        | some (pm, j) => s1.traceSplit r.g 2 pm j 0
        | none => s1
      if ok.isEmpty && !drop then r.finish s2 g2
      else
        let us := if f.uniform then (r.laneUnits s m f n 0 first).take 1
          else ok.flatMap fun l => r.laneUnits s m f n l (ea l)
        let s3 := if (f.kind == .load || f.kind == .rot) && f.space == .global && m.pol.toNat == 0 then r.scoreMisses s2 us
          else s2
        let w : MemWork := ⟨f.kind, f.space, m.d.toNat, m.size.toNat, f.uniform, f.ret, m.pol.toNat, m.scope.toNat,
          m.pol.toNat, us⟩
        let g3 := (dget s3.groups r.gid).map Group.score
        let g4 := { g2 with score := g3.getD g2.score }
        let r' := { r with sp := { r.sp with mask := maskOf ok } }
        .next ((r'.issueOp s3 g4 f.fam f.dc (r.memWaits s m f) (.mem w) [] []).settle r.gid)

/-! ### Loads, stores, prefetch (R198 to R204) -/

/-- A load of class 3. -/
def fmLoad (m : Fm) (k : AccKind) (sp : Space) (uniform : Bool) (s : State) : Out :=
  onRun s fun r => r.memIssue s m ⟨k, sp, .memory, dcOf m.dc, true, uniform, fun _ => []⟩

/-- A store of class 3. -/
def fmStore (m : Fm) (k : AccKind) (sp : Space) (s : State) : Out :=
  onRun s fun r =>
    r.memIssue s m ⟨k, sp, .memory, dcOf m.dc, false, false, fun l => r.g.laneBytes m.d.toNat l (sizeBytes m.size)⟩

/-- ldg (R198). -/
def execLdg (m : Fm) (s : State) : Out := fmLoad m .load .global false s
/-- stg (R198). -/
def execStg (m : Fm) (s : State) : Out := fmStore m .store .global s
/-- ldgu (R199). -/
def execLdgu (m : Fm) (s : State) : Out := fmLoad m .load .global true s
/-- lds (R198). -/
def execLds (m : Fm) (s : State) : Out := fmLoad m .load .window false s
/-- sts (R198). -/
def execSts (m : Fm) (s : State) : Out := fmStore m .store .window s
/-- ldx (R198). -/
def execLdx (m : Fm) (s : State) : Out := fmLoad m .load .remote false s
/-- stx (R198). -/
def execStx (m : Fm) (s : State) : Out := fmStore m .store .remote s
/-- ldrot (R200, R201). -/
def execLdrot (m : Fm) (s : State) : Out := fmLoad m .rot .global false s
/-- stnt (R202): no counter. -/
def execStnt (m : Fm) (s : State) : Out := fmStore m .storeNt .global s

/-- pref (R204): a lane that would take any cause is dropped. -/
def execPref (m : Fm) (s : State) : Out :=
  onRun s fun r => r.memIssue s m ⟨.pref, .global, .memory, dcOf m.dc, false, false, fun _ => []⟩

/-! ### Atomics (R208 to R210) -/

/-- An atomic of class 3 by sub-operation and space: the operand, or for a compare-and-swap both values, is read at
issue. -/
def fmAtomic (m : Fm) (k : Nat) (sp : Space) (s : State) : Out :=
  onRun s fun r =>
    let n := sizeBytes m.size * (if k = 10 then 2 else 1)
    r.memIssue s m ⟨.atomic k, sp, .atomic, dcOf m.dc, (dcOf m.dc).isSome, false, fun l => r.g.laneBytes m.d.toNat l n⟩

/-- atomg (R208). -/
def execAtomg (k : BitVec 4) (m : Fm) (s : State) : Out := fmAtomic m k.toNat .global s
/-- casg (R209). -/
def execCasg (m : Fm) (s : State) : Out := fmAtomic m 10 .global s
/-- atoms (R208). -/
def execAtoms (k : BitVec 4) (m : Fm) (s : State) : Out := fmAtomic m k.toNat .window s
/-- cass (R209). -/
def execCass (m : Fm) (s : State) : Out := fmAtomic m 10 .window s
/-- atomx (R208). -/
def execAtomx (k : BitVec 4) (m : Fm) (s : State) : Out := fmAtomic m k.toNat .remote s
/-- atomx.cas (R209). -/
def execAtomxCas (m : Fm) (s : State) : Out := fmAtomic m 10 .remote s

/-! ### drain, cinv, seal, unseal (R203 to R207) -/

/-- Count a class 3 instruction that makes no lane access; what its MEMSAMPLE record would hold is not stated, so it is
a free value (log 5). -/
def Run.sampleOther (r : Run) (s : State) : State :=
  (r.sample s (Config.freeNat s.freeCtr % 16) 0 (Config.freeNat (s.freeCtr + 1))).useFree.useFree

/-- drain (R203): it waits for the stnt of the group issued before it. -/
def execDrain (dc : DcField) (s : State) : Out :=
  onRun s fun r =>
    if r.full (dcOf dc) then r.stall s
    else
      let ops := s.flight.filterMap fun e =>
        match e.2.work with
        | .mem m => if e.2.group == r.gid && m.kind == .storeNt then some e.1 else none
        | _ => none
      .next (r.issueOp (r.sampleOther s) r.g .drain (dcOf dc) [] (.drain ops) [] [])

/-- DRAIN_COMPLETE: every stnt the drain waits for is performed (R203). -/
def execDrainComplete (op : Nat) (s : State) : Out :=
  match dget s.flight op with
  | some o =>
    match o.work with
    | .drain ops => if ops.all s.performed then .next (s.retireOp op o) else .refused .notEnabled
    | _ => .refused .notEnabled
  | none => .refused .notEnabled

/-- cinv (R205): the lines leave the L1 at issue; a range of more than 256 lines is performed as .all (R211); the counter
decrements later. -/
def execCinv (a b : SReg) (all : Bit) (dc : DcField) (s : State) : Out :=
  onRun s fun r =>
    if r.full (dcOf dc) then r.stall s
    else
      let lo := (r.sx a).toNat
      let hi := min (lo + (r.sx b).toNat) (2 ^ 64)
      let s1 := r.sampleOther s
      let lines := if lo < hi then (hi - 1) / 64 + 1 - lo / 64 else 0
      let s2 :=
        if all.toNat == 1 || 256 < lines then s1.dropL1 r.t.core (s1.ownLine r.t.asid)
        else s1.dropL1 r.t.core fun l => l.asid == s1.spaceOf r.t.asid l.va && l.va < hi && lo < l.va + 64 && lo < hi
      .next (r.issueOp s2 r.g .short (dcOf dc) [] .none [] [])

/-- The pages of a context's space that overlap a range, its own and those of attached ranges (R252). -/
def State.pagesIn (s : State) (asid base size : Nat) : List (Nat × Nat × Page) :=
  let pick (a lo hi : Nat) : List (Nat × Nat × Page) :=
    match dget s.ctxs a with
    | some c => (c.pages.filter fun e => e.1 < hi && lo < e.1 + e.2.bytes).map fun e => (a, e.1, e.2)
    | none => []
  let own := pick asid base (base + size)
  match dget s.ctxs asid with
  | some c => own ++ c.attach.flatMap fun x => pick x.shared (max base x.base) (min (base + size) (x.base + x.size))
  | none => own

/-- Bytes of a page or segment inside a range. -/
def pageOverlap (base size b n : Nat) : Nat := min (base + size) (b + n) - max base b

/-- Base of the whole page of a segment (R248). -/
def Page.whole (p : Page) (b : Nat) : Nat := b / classBytes p.sc * classBytes p.sc

/-- The version of a live team holds a sector in a range of the pages given. -/
def State.versionHolds (s : State) (ps : List (Nat × Nat × Page)) : Bool :=
  s.teams.any fun e =>
    e.2.ver.sectors.any fun x =>
      ps.any fun q => q.1 == x.asid && q.2.1 ≤ x.va && x.va < q.2.1 + q.2.2.bytes

/-- The status of a seal or unseal of a region by a team, before it changes anything (R206). -/
def State.sealStatus (s : State) (t : Team) (isUnseal inVersion : Bool) (base size : Nat) : Nat :=
  let ps := s.pagesIn t.asid base size
  let covered := ps.foldl (fun n q => n + pageOverlap base size q.2.1 q.2.2.bytes) 0
  if base % 4096 != 0 || size % 4096 != 0 || size == 0 || !canonical base || !canonical (base + size - 1)
      || 2 ^ 64 < base + size || (base < 2 ^ 56 && 2 ^ 56 < base + size) then 1
  else if ps.any fun q =>
      let w := q.2.2.whole q.2.1
      w < base || base + size < w + classBytes q.2.2.sc then 2
  else if covered != size || ps.any fun q =>
      q.2.2.st == .remote || q.2.2.st == .faulting then 3
  else if ps.any fun q => !q.2.2.w then 4
  else if inVersion then 5
  else if isUnseal && ps.any fun q => q.2.2.st != .sealed then 6
  else 0

/-- seal or unseal at issue: the region is captured, and the group's earlier accesses come first (R207). -/
def sealIssue (fam : Family) (isUnseal : Bool) (f : Ch3) (s : State) : Out :=
  onRun s fun r =>
    if r.full (dcOf f.dc) then r.stall s
    else
      .next (r.issueOp (r.sampleOther s) r.g fam (dcOf f.dc) (s.covered r.gid)
        (.seal isUnseal r.t.forming (r.sx f.a).toNat (r.sx f.b).toNat) [] [(f.d.toNat, 0)])

/-- seal (R206, R207). -/
def execSeal (f : Ch3) (s : State) : Out := sealIssue .seal false f s
/-- unseal (R206, R207). -/
def execUnseal (f : Ch3) (s : State) : Out := sealIssue .unseal true f s

/-- An operation in flight ends with one scalar result. -/
def State.retireScalar (s : State) (id : Nat) (o : Op) (x : DWord) : State :=
  s.retireOp id { o with sout := o.sout.map fun e => (e.1, x) }

/-- Set the state of pages. -/
def State.setPages (s : State) (ps : List (Nat × Nat × Page)) (st : PageSt) : State :=
  ps.foldl (fun s q => s.modPage q.1 q.2.1 fun p => { p with st := st }) s

/-- Drop the L1 lines of pages in every core, and their sectors in every cluster cache, dirty ones written back (R207, R253). -/
def State.dropPages (s : State) (ps : List (Nat × Nat × Page)) : State :=
  let hit (a va : Nat) : Bool := ps.any fun q => q.1 == a && q.2.1 ≤ va && va < q.2.1 + q.2.2.bytes
  let s1 := s.dropSectors fun x => hit x.asid x.va
  { s1 with cores := s1.cores.map fun e => (e.1, { e.2 with l1 := e.2.l1.filter fun l => !hit l.asid l.va }) }

/-- A page on the move (R207). -/
def Page.moving (p : Page) : Bool := p.st == .migrating || p.st == .promoting || p.st == .evicting

/-- The completion of a seal or unseal: it waits for pages on the move and for versions, then checks and changes every
page, or returns a status (R206, R207). -/
def sealDone (isUnseal : Bool) (op : Nat) (s : State) : Out :=
  match dget s.flight op with
  | none => .refused .notEnabled
  | some o =>
    match o.work, dget s.teams o.team with
    | .seal u inVersion base size, some t =>
      let ps := s.pagesIn t.asid base size
      let st := s.sealStatus t isUnseal inVersion base size
      if u != isUnseal || !(o.waits.all s.performed) then .refused .notEnabled
      else if st == 1 || st == 2 || st == 5 then .next (s.retireScalar op o (BitVec.ofNat 64 st))
      else if !isUnseal && (ps.any fun q => q.2.2.moving) then .refused .notEnabled
      else if st != 0 then .next (s.retireScalar op o (BitVec.ofNat 64 st))
      else if isUnseal then
        .next (((s.setPages ps .resident).dropPages ps |>.acquireL1 t.core t.asid 3 4).retireScalar op o 0)
      else if s.versionHolds ps then .refused .notEnabled
      else .next ((s.setPages ps .sealed).retireScalar op o 0)
    | _, _ => .refused .notEnabled

/-- SEAL_COMPLETE (R207). -/
def execSealComplete (op : Nat) (s : State) : Out := sealDone false op s
/-- UNSEAL_COMPLETE (R207). -/
def execUnsealComplete (op : Nat) (s : State) : Out := sealDone true op s

/-! ### The steps that perform and complete accesses -/

/-- A prefetch at its slice: dropped where it would take a cause, otherwise it fills from committed data and touches no
hoop (R197, R204). -/
def State.prefetch (s : State) (id i : Nat) (o : Op) (m : MemWork) (u : Access) (t : Team) : State :=
  let done (s : State) : State := s.modUnit id i fun u => { u with st := .done }
  match s.pageAt t.asid u.addr with
  | some (a, _, p) =>
    if !canonical u.addr || !p.permits .read || p.coreCause .read != 0 || p.st == .remote then done s
    else if s.holds p false u.addr 1 then s
    else
      let s1 := s.touchAddrs o.team t false m.cachePol [u.addr]
      let slot := ((dget s.groups o.group).map Group.slot).getD 0
      done (if m.pol == 0 then s1.fillL1 t.core a u.addr slot else s1)
  | none => done s

/-- The access waits in a queue of a home slice. -/
def State.queued (s : State) (id i : Nat) : Bool :=
  s.slices.any (fun e => e.2.starved.contains (id, i) || e.2.hoops.any fun h => h.held.contains (id, i))
  || s.ctxs.any fun e => e.2.pages.any fun q => q.2.hold.contains (.touch id i) || q.2.waiters.contains (.touch id i)

/-- Perform the scratchpad accesses of an operation in the lanes of a mask that may be performed, in order. -/
def State.scratchAll (s : State) (id : Nat) (m : LaneMask) : List Nat → State
  | [] => s
  | i :: is =>
    let s1 :=
      match dget s.flight id with
      | some o =>
        match o.work with
        | .mem w =>
          match w.units[i]? with
          | some u =>
            if w.space != .global && u.waits && m.getLsbD u.lane && s.mayPerform id o w i u then
              (s.ordered o w).scratchAccess id i o w u
            else s
          | none => s
        | _ => s
      | none => s
    State.scratchAll s1 id m is

/-- Lanes leave what holds a split, where it keeps lanes of its own: a spill, or a launch that waits. None where none of its lanes
is left (R139, R144). -/
def Block.without (m : LaneMask) : Block → Option Block
  | .spilling ls t => if ls &&& ~~~m == 0 then none else some (.spilling (ls &&& ~~~m) t)
  | .spillWait ls t => if ls &&& ~~~m == 0 then none else some (.spillWait (ls &&& ~~~m) t)
  | .launch d a ls => if ls &&& ~~~m == 0 then none else some (.launch d a (ls &&& ~~~m))
  | .held i e d a ls => if ls &&& ~~~m == 0 then none else some (.held i e d a (ls &&& ~~~m))
  | b => some b

/-- Lanes leave a split: it is FREE when none is left, and READY when it was held for those lanes alone. -/
def Split.without (m : LaneMask) (sp : Split) : Split :=
  if sp.isFree then sp
  else if sp.mask &&& ~~~m == 0 then sp.freed
  else
    { sp with
      mask := sp.mask &&& ~~~m
      st := match sp.st with
        | .blocked b => ((b.without m).map SplitSt.blocked).getD .ready
        | st => st }

/-- A replay that has lost all its marked lanes is over: the split goes on with the others behind the instruction, an FM
instruction of two words (R36, R143). -/
def Group.replayLost (g : Group) (m : LaneMask) : Bool := g.saved != 0 && g.marked &&& ~~~m == 0

/-- A fatal cause that an access met after issue: the lane leaves the split that holds it (R144). The lanes that stand by while the
marked ones replay stay in their split (R139, R143). -/
def Group.lateFault (g : Group) (cyc : Nat) (cs : List LaneCause) : Group :=
  let m := maskOf (cs.map LaneCause.lane)
  let g1 := g.addFaults cyc cs
  let g2 := if g.replayLost m then
      let sp := g1.split g1.markedSlot
      { (g1.setSplit g1.markedSlot { sp with mask := g1.saved, nxt := sp.pos + 2 }) with saved := 0 }
    else g1
  { g2 with
    marked := g2.marked &&& ~~~m
    saved := g2.saved &&& ~~~m
    splits := g2.splits.map (Split.without m) }

/-- The bytes a lane has read, its halves in order. -/
def MemWork.laneGot (m : MemWork) (l : Nat) : List Byte := (m.units.filter fun u => u.lane == l).flatMap Access.got

/-- The fatal cause of a lane's access, the highest of its halves, or 0. -/
def MemWork.laneCause (m : MemWork) (l : Nat) : Nat :=
  (m.units.filter fun u => u.lane == l).foldl (fun c u =>
    match u.st with
    | .failed k => max c k
    | _ => c) 0

/-- Complete the accesses of the lanes of a mask: results are written; with the last lane the operation is over, and the causes
that accesses met after issue are recorded (R34, R35, R144, R195, R208, R355). Its instruction bears the number before its own (memIssue), by which the causes of
one instruction are told from another's (R379). -/
def State.completeLanes (s : State) (id : Nat) (o : Op) (m : MemWork) (lanes : LaneMask) : Out :=
  match dget s.teams o.team with
  | none => .refused .notEnabled
  | some t =>
    let mine := m.units.filter fun u => lanes.getLsbD u.lane && u.st != .gone && m.laneCause u.lane == 0
    let rest := m.units.map fun u =>
      if lanes.getLsbD u.lane && m.laneCause u.lane == 0 then { u with st := .gone } else u
    let ended := rest.all fun u => u.st == .gone || m.laneCause u.lane != 0 && !u.waits
    if mine.any Access.waits || (mine.isEmpty && !ended) then .refused .notEnabled
    else
      let ls := (mine.map Access.lane).eraseDups
      let bad := if ended then (m.units.map Access.lane).eraseDups.filter fun l => m.laneCause l != 0 else []
      let good := ls.filter fun l => !(m.units.any fun u => u.lane == l && u.st == .gone)
      let va (l : Nat) : Nat := ((m.units.find? fun u => u.lane == l).map Access.addr).getD 0
      let hit (l : Nat) : List Nat := if m.uniform then lanesOf o.mask else [l]
      let faulted := ((dget s.groups o.group).map Group.faulted).getD 0
      let cs := (bad.flatMap fun l => (hit l).map fun j =>
        (⟨j, m.laneCause l, va l, o.hdr, o.idx, o.word, id - 1⟩ : LaneCause)).filter fun c => !faulted.getLsbD c.lane
      let recs := if m.space == .global then
          s.records t.core t m.kind.acc (cs.flatMap fun c =>
            (s.causeAddrs t m.kind c.va c.cause).map fun a => (c.lane, a, c.cause))
        else []
      let s1 := (s.toSieve t.core o.group (id - 1) recs).modGroup o.group fun g =>
        if cs.isEmpty then g else g.lateFault (s.cyc1000 t.core) cs
      let o1 :=
        if !m.ret then o
        else if m.uniform then
          { o with sout := good.map fun l => (m.d, loadScalar m.size (m.laneGot l)) }
        else { o with vout := good.map fun l => ⟨l, m.d, loadWords m.size (m.laneGot l)⟩ }
      if ended then
        let s2 := if m.acquires then s1.acquireL1 t.core t.asid 1 m.scope else s1
        .next (s2.deliverLanes id { o1 with work := .none } lanes)
      else
        let s2 := s1.modGroup o.group fun g => o1.vout.foldl Group.deliver g
        .next (({ s2 with flight := dset s2.flight id { o with work := .mem { m with units := rest } } }).settle o.group)

/-- An access waits at a page: behind its copy or for its promotion. -/
def State.atPage (s : State) (op i : Nat) : Bool :=
  s.ctxs.any fun e => e.2.pages.any fun q => q.2.hold.contains (.touch op i) || q.2.waiters.contains (.touch op i)

/-- The access is parked at its core for a page (R264). -/
def Access.isParked (u : Access) : Bool :=
  match u.st with
  | .parked _ => true
  | _ => false

/-- The touches and writes of a HALTING team that are held for a granule or for room are discarded, and so are its parked
accesses (R137, R262, R355). -/
def State.discardHeld (s : State) (op : Nat) (o : Op) (m : MemWork) : State :=
  if ((dget s.teams o.team).map fun t => t.st == .halting).getD false && m.units.any (fun u => u.st == .held || u.isParked) then
    let drop (x : Access × Nat) : Bool := x.1.isParked || (x.1.st == .held && x.1.req.isNone && !s.atPage op x.2)
    let gone := ((m.units.zipIdx).filter drop).map fun x => (op, x.2)
    let s1 : State := { s with slices := s.slices.map fun e =>
      (e.1, { e.2 with hoops := e.2.hoops.map (fun h => { h with held := h.held.filter fun r => !gone.contains r }),
                       starved := e.2.starved.filter fun r => !gone.contains r
                       counted := e.2.counted.filter fun r => !gone.contains r }) }
    gone.foldl (fun s r => s.modUnit r.1 r.2 fun u => { u with st := .gone }) s1
  else s

/-- Complete lanes of a memory operation of a family, after performing its scratchpad accesses there. -/
def memComplete (fam : Family) (op : Nat) (lanes : LaneMask) (s : State) : Out :=
  match dget s.flight op with
  | none => .refused .notEnabled
  | some o0 =>
    match o0.work with
    | .mem m0 =>
      if o0.fam != fam then .refused .notEnabled
      else
        let s1 := (s.discardHeld op o0 m0).scratchAll op lanes (List.range m0.units.length)
        match dget s1.flight op with
        | some o =>
          match o.work with
          | .mem m => s1.completeLanes op o m lanes
          | _ => .refused .notEnabled
        | none => .refused .notEnabled
    | _ => .refused .notEnabled

/-- MEMORY_ACCESS_COMPLETE: the accesses of lanes of a load, store or prefetch are over (R195, R198). -/
def execMemoryAccessComplete (op : Nat) (lanes : LaneMask) (s : State) : Out := memComplete .memory op lanes s

/-- ATOMIC_COMPLETE: the same for an atomic (R208). -/
def execAtomicComplete (op : Nat) (lanes : LaneMask) (s : State) : Out := memComplete .atomic op lanes s

end Sys2Proof.Machine
end

