-- ==== Sys2Proof/Machine/Groups.lean ====
section
/-!
DEFINITION. Groups and splits: the fetch check (02_encoding.md R31 to R33), picking and merging (08_groups.md R141,
R142), spilling and plaiting (R145 to R149), the memory cap (R153, R154), and the steps that wake what waits.
-/
namespace Sys2Proof.Machine

/-! ### The fetch check (R31) -/

/-- Branch, EXIT and LAUNCH, by opcode: they must be last in their clause (R31). -/
def mustBeLast (op : Nat) : Bool := (0x304 ≤ op && op ≤ 0x30C) || op == 0x311

/-- A failed check: trap code, word index from 1, and the word. -/
abbrev ClauseError := Nat × Nat × Word

/-- The walk over the words of a clause of a class, under a map and a granule budget (R31); `i` is the index of the
first word left. -/
def walkClause (m : MapImage) (cls g : Nat) : Nat → Nat → List Word → Option ClauseError
  | 0, _, _ => none
  | _, _, [] => none
  | fuel + 1, i, raw :: rest =>
    match mapOpcode m (opcodeOf raw) with
    | none => some (trapIllegalOpcode, i, raw)
    | some op =>
      match findRow op (withOpcode raw op) with
      | none => some (trapIllegalOpcode, i, raw)
      | some row =>
        let c := op / 128
        let tail := if row.ext.isSome then rest.drop 1 else rest
        if c != 0 && c != 1 && c != cls then some (trapBadClause, i, raw)
        else if mustBeLast op && !rest.isEmpty then some (trapBadClause, i, raw)
        else if row.ext.isSome && rest.isEmpty then some (trapBadClause, i, raw)
        else
          match decode m (raw :: rest) with
          | .error _ => some (trapReservedField, i, raw)
          | .ok (ins, _) =>
            if ins.wf && ins.fitsBudget g then walkClause m cls g fuel (i + (rest.length - tail.length) + 1) tail
            else some (trapReservedField, i, raw)

/-- COUNT of a header (R31). -/
def hdrCount (h : Word) : Nat := (h.extractLsb' 28 4).toNat
/-- CLASS of a header (R31). -/
def hdrClass (h : Word) : Nat := (h.extractLsb' 25 3).toNat
/-- WAIT of a header (R31). -/
def hdrWait (h : Word) : BitVec 6 := h.extractLsb' 19 6

/-- The header is well formed (R31). -/
def hdrOk (h : Word) : Bool := hdrCount h != 0 && hdrClass h != 1 && h.extractLsb' 0 18 == 0

/-! ### Fetch (R33) -/

/-- The code of a page as it stands now, by virtual address; none for a page of a peer, which is brought over by sectors (R33). -/
def State.codeOf (s : State) (b : Nat) (p : Page) : Option (Nat × Memory) :=
  p.store.map fun a => (b, (s.mem.filter fun x => a ≤ x.1 && x.1 < a + p.bytes).map fun x => (b + (x.1 - a), x.2))

/-- A page that a clause is fetched from is kept with the kernel as it stands, where it was not there at the launch edge: a later
store to it is seen by no team of the kernel (R33, log 26). -/
def State.freezeCode (s : State) (kid asid va : Nat) : State :=
  match s.pageAt asid va with
  | some (_, b, p) =>
    match s.codeOf b p with
    | some c => s.modKernel kid fun k => if k.code.any fun e => e.1 == b then k else { k with code := k.code ++ [c] }
    | none => s
  | none => s

/-- A byte of code as a kernel's teams see it: as it stood at the launch edge (R33). -/
def State.codeByte (s : State) (k : Kernel) (va : Nat) : Byte :=
  match s.pageAt k.asid va with
  | some (_, b, p) =>
    match k.code.find? fun e => e.1 == b with
    | some e => e.2.read va
    | none => s.mem.read (p.key b va)
  | none => 0

/-- A word of code. -/
def State.codeWord (s : State) (k : Kernel) (va : Nat) : Word :=
  wordOfBytes (s.codeByte k va) (s.codeByte k (va + 1)) (s.codeByte k (va + 2)) (s.codeByte k (va + 3))

/-- The decode map of a context (R64). -/
def State.mapOf (s : State) (asid : Nat) : MapImage := ((dget s.ctxs asid).map Ctx.map).getD []

/-- The cause a fetch meets at an address, or 0; a promotion that failed gives its own cause at the replay (R33, R219,
R261). -/
def State.fetchCause (s : State) (t : Team) (doom : List (Nat × Nat)) (va : Nat) : Nat :=
  if va % 4 != 0 then causeMisaligned
  else
    let c := s.causeAt t.asid t.mode va .fetch
    if c == causeNotPresent then
      match s.pageAt t.asid va with
      | some (a, b, _) => ((doom.find? fun d => d.1 == pageId a b).map Prod.snd).getD c
      | none => c
    else c

/-- A fetch meets a cause at an address: the whole split parks, or every active lane takes the fatal cause (R33). -/
def Run.fetchFault (r : Run) (s : State) (cause va : Nat) : Out :=
  let acc := s.records r.t.core r.t .fetch ((lanesOf r.act).map fun l => (l, va, cause))
  let recs := if cause ≤ 7 then acc else []
  if cause == causeNotPresent then
    if !s.sieveTakes r.t.core recs.length then .refused .notEnabled
    else
      let pages := ((s.pageAt r.t.asid va).map fun e => pageId e.1 e.2.1).toList
      let sp := { r.sp with st := .parked, words := [], pos := 0, nxt := 0, pages := pages, doom := [] }
      let s1 := (s.toSieve r.t.core r.gid s.nextId recs).bump.traceSplit r.g 2 r.act r.slot 0
      r.finish s1 (r.g.setSplit r.slot sp)
  else
    let cs := (lanesOf r.act).map fun l => (⟨l, cause, va, r.sp.pc, 0, Config.freeWord s.freeCtr, s.nextId⟩ : LaneCause)
    let s1 := (s.toSieve r.t.core r.gid s.nextId recs).bump.useFree
    r.finish s1 ((r.g.addFaults (s.cyc1000 r.t.core) cs).setSplit r.slot r.sp.freed)

/-- A precise trap of the fetch check at the clause at PC (R31). -/
def Run.fetchTrap (r : Run) (s : State) (code idx : Nat) (word : Word) : Out :=
  let sp := { r.sp with words := [], pos := 0, nxt := 0 }
  .next ((r.put s (r.g.setSplit r.slot sp)).takeTrap r.gid (r.g.setSplit r.slot sp)
    ⟨code, 0, r.g.grp, r.act, r.sp.pc, idx, word, 0, 0, 0⟩)

/-! ### Picking and merging (R141, R142) -/

/-- The address a candidate stands at: its next header, or that of the word it issues next in its clause. -/
def Split.at (sp : Split) : Nat := if sp.atBoundary then sp.pc else sp.hdr + 4 * (sp.nxt + 1)

/-- A candidate at a header is passed over while another stands at a lower address (R142). -/
def Group.passedOver (g : Group) (i : Nat) : Bool :=
  let sp := g.split i
  sp.atBoundary && sp.skip < 256 && g.splits.any fun x => x.ready && x.at < sp.at

/-- Walk the candidates in round-robin order, raising the skip count of each that is passed over. -/
def Group.pickGo (g : Group) : List Nat → Group × Option Nat
  | [] => (g, none)
  | i :: is =>
    let sp := g.split i
    if !sp.ready then Group.pickGo g is
    else if g.passedOver i then Group.pickGo (g.setSplit i { sp with skip := sp.skip + 1 }) is
    else ({ (g.setSplit i { sp with skip := 0 }) with run := some i, last := i }, some i)

/-- The pick of R142. -/
def Group.pick (g : Group) : Group × Option Nat := g.pickGo ((List.range 4).map fun j => (g.last + 1 + j) % 4)

/-- The slots merged with slot `i` before a fetch: every READY split at a boundary with its PC, itself included (R141). -/
def Group.mergeSet (g : Group) (i : Nat) : List Nat :=
  (List.range 4).filter fun j => j == i || ((g.split j).ready && (g.split j).atBoundary && (g.split j).pc == (g.split i).pc)

/-- Merge before a fetch: the group, and the slot kept (R141), from which the next pick goes on (R142, log 52). -/
def Group.merge (g : Group) (i : Nat) : Group × Nat :=
  let js := g.mergeSet i
  match js with
  | [] => (g, i)
  | k :: _ =>
    let sp := g.split i
    let mask := js.foldl (fun m j => m ||| (g.split j).mask) 0
    let past := (js.flatMap fun j => (g.split j).past).eraseDups
    let doom := js.flatMap fun j => (g.split j).doom
    let g1 := js.foldl (fun g j => g.setSplit j Split.empty) g
    ({ (g1.setSplit k { sp with mask := mask, past := past, doom := doom }) with run := some k, last := k }, k)

/-! ### CLAUSE_FETCH -/

/-- A live group that stands on a core with its team (R153, R154). -/
def State.onCore (s : State) (core : Nat) (g : Group) : Bool :=
  g.core == core && g.st == .live && ((dget s.teams g.team).map fun t => t.st == .running).getD false

/-- A group comes before another in (team age, %grp) order (R154). -/
def State.memBefore (s : State) (g : Group) (age grp : Nat) : Bool :=
  match dget s.teams g.team with
  | some t => t.age.toNat < age || (t.age.toNat == age && g.grp < grp)
  | none => false

/-- Rank of a group among the live groups of its core in (team age, %grp) order (R154). -/
def State.memRank (s : State) (g : Group) (age : Nat) : Nat :=
  (s.groups.filter fun e => s.onCore g.core e.2 && s.memBefore e.2 age g.grp).length

/-- The group may issue clauses of class 3: as the last setting of the cap found it. One that has come since is among the first of its
core and finds a place that neither the groups admitted nor the newcomers before it take (R154, log 24). -/
def State.memAllowed (s : State) (g : Group) (t : Team) : Bool :=
  let cap := (s.core g.core).memcap
  let taken := (s.groups.filter fun e =>
    s.onCore g.core e.2 && (e.2.memOk == some true || (e.2.memOk.isNone && s.memBefore e.2 t.age.toNat g.grp))).length
  g.memOk.getD (s.memRank g t.age.toNat < cap && taken < cap)

/-- 1,048,576 island cycles have passed since the first fatal cause of the group (R377). -/
def State.faultsDue (s : State) (g : Group) : Bool :=
  match g.faultSince with
  | some c => g.faulted != 0 && c + 1048576000 ≤ s.cyc1000 g.core
  | none => false

/-- A split of the group spills: the group waits for its counters and for the write of the lanes (R145). -/
def Group.spills (g : Group) : Bool :=
  g.splits.any fun sp =>
    match sp.st with
    | .blocked (.spilling ..) => true
    | .blocked .spillWrite => true
    | _ => false

/-- A team that holds the irrevocable token (R156). -/
def State.exempt (s : State) (tid : Nat) (t : Team) : Bool := t.ver.irrevocable || s.pk.tokenHolder == some tid

/-- The team is being pre-empted; a holder of the token is not (R156, R157). -/
def State.leaving (s : State) (tid : Nat) (t : Team) : Bool := t.stopReq && !s.exempt tid t

/-- Nothing outside the group's own splits keeps it from a fetch: its team runs and is not being stopped, no debugger
holds it, and nothing is due at its clause boundary. -/
def State.mayFetch (s : State) (g : Group) (t : Team) : Bool :=
  g.st == .live && t.st == .running && !s.leaving g.team t && !t.copyingIn && !g.dbgHeld && !g.faultWait && !g.toLoad.contains 0
    && g.asyncTraps.isEmpty && g.pendStops.isEmpty && !g.spills && !s.faultsDue g && !s.issueStopped g.core

/-- The sectors of a range. -/
def sectorsOf (va n : Nat) : List Nat := [va / 64 * 64, (va + n - 1) / 64 * 64].eraseDups

/-- The first sector of a range of code that lies in a page of a peer and has not been brought over (R33, R256). -/
def State.farSector (s : State) (k : Kernel) (va n : Nat) : Option Nat :=
  (sectorsOf va n).find? fun x =>
    ((s.pageAt k.asid x).map fun e => e.2.2.st == .remote && e.2.2.back == 2 && !k.codeHave.contains x).getD false

/-- A clause is fetched through the cluster cache (R33): its sectors are touched there, and its pages' code is kept. -/
def State.fetched (s : State) (t : Team) (va n : Nat) : State :=
  (sectorsOf va n).foldl (fun s x =>
    match s.pageAt t.asid x with
    | some (a, b, p) =>
      if p.st == .remote then s
      else ((s.touchSector (clusterOf t.core) a x p (p.key b x) false ⟨true, false⟩ none).reach a b).freezeCode t.kernel t.asid x
    | none => s) s

/-- Ask a peer for a sector of code; what a failed request gives is a lane cause of the fetch (R33, R398). -/
def Run.askCode (r : Run) (s : State) (k : Kernel) (sec : Nat) : Out :=
  let kid := r.t.kernel
  let va := max sec r.sp.pc
  match k.codeFail.find? fun e => e.1 == sec, s.pageAt r.t.asid sec with
  | some (_, c), _ =>
    r.fetchFault (s.modKernel kid fun k => { k with codeFail := k.codeFail.filter fun e => e.1 != sec }) c va
  | none, some (_, b, p) =>
    if s.ports.any fun e => e.2.out.any fun q =>
        match q.purpose with
        | .fetch k v _ => k == kid && v == sec
        | _ => false then .refused .notEnabled
    else
      match s.sendTo p (sec - b) .read (leBytes 64 0) (.fetch kid sec r.t.core) with
      | some (s1, _) => .next (s1.modGroup r.gid fun g => { g with fetching := true })
      | none => r.fetchFault s causeRemoteTimeout va
  | none, none => r.fetchFault s causeNotMapped va

/-- Fetch and check the clause at PC of the split picked (R31, R33). -/
def Run.fetch (r : Run) (s : State) (k : Kernel) : Out :=
  let pc := r.sp.pc
  let c0 := s.fetchCause r.t r.sp.doom pc
  let far0 := s.farSector k pc 4
  let far1 := s.farSector k pc (4 * (hdrCount (s.codeWord k pc) + 1))
  if c0 != 0 then r.fetchFault s c0 pc
  else if far0.isSome || far1.isSome then r.askCode s k ((far0.orElse fun _ => far1).getD pc)
  else
    let h := s.codeWord k pc
    let n := hdrCount h
    let c1 := s.fetchCause r.t r.sp.doom (pc + 4 * n)
    if !hdrOk h then r.fetchTrap s trapBadClause 0 h
    else if c1 != 0 then r.fetchFault s c1 (pc + 4 * n)
    -- the fetch stands behind an access that the copy of its page holds (R263)
    else if (sectorsOf pc (4 * (n + 1))).any fun x => (s.heldAt r.tid r.t .fetch x 64).isSome then .refused .notEnabled
    else
      let ws := (List.range n).map fun i => s.codeWord k (pc + 4 * (i + 1))
      match walkClause (s.mapOf r.t.asid) (hdrClass h) (k.granules r.g.role) 16 1 ws with
      | some (code, i, w) => r.fetchTrap s code i w
      | none =>
        if hdrClass h == 3 && !s.memAllowed r.g r.t then .refused .notEnabled
        else
          let sp := { r.sp with
            hdr := pc, words := ws, pos := 0, nxt := 0, pc := (pc + 4 * (n + 1)) % 2 ^ 64, doom := [], sw := h.getLsbD 18 }
          let st := if r.g.waitMet (hdrWait h) then SplitSt.ready else .blocked (.header (hdrWait h))
          let g := if hdrClass h == 3 then { r.g with memOk := some true } else r.g
          r.finish (s.fetched r.t pc (4 * (n + 1))) (g.setSplit r.slot { sp with st := st })

/-- A READY split inside its clause, in the order of R142. It goes on to its boundary also where its group may not fetch
(R157, R378, R388). -/
def Group.midClause (g : Group) : Option Nat :=
  ((List.range 4).map fun j => (g.last + 1 + j) % 4).find? fun i => (g.split i).ready && !(g.split i).atBoundary

/-- The team is HALTING on its core: its groups go on to their clause boundaries; one that is away has stopped at once (R378). -/
def Team.stopping (t : Team) : Bool := t.st == .halting && !t.offCore

/-- A group that may not fetch: a split inside its clause is picked, and goes on to its boundary. -/
def State.fetchless (s : State) (g : Nat) (x : Group) (t : Team) : Out :=
  if x.st != .live || x.faultWait || x.spills || t.copyingIn || !(t.st == .running || t.stopping) then .refused .notEnabled
  else
    match x.midClause with
    | some i => .next (s.setGroup g { x with run := some i, last := i })
    | none => .refused .notEnabled

/-- The split that the group goes on with where it waits for the code of its clause (R33, R142). -/
def Group.fetchingSplit (g : Group) : Option Nat :=
  g.run.filter fun i => g.fetching && (g.split i).ready && (g.split i).atBoundary

/-- CLAUSE_FETCH: a group picks its next split; one at a clause boundary merges with those at the same header, fetches
its clause and checks it (R31, R141, R142). One that waits for its clause to come from a peer stays the one picked. -/
def execClauseFetch (g : Nat) (s : State) : Out :=
  match dget s.groups g with
  | none => .refused .notEnabled
  | some x =>
    match dget s.teams x.team, dget s.kernels ((dget s.teams x.team).map Team.kernel |>.getD 0) with
    | some t, some k =>
      let busy := match x.run with
        | some i => (x.split i).ready && !(x.split i).atBoundary
        | none => false
      if busy then .refused .notEnabled
      else if !s.mayFetch x t then s.fetchless g x t
      else
        match x.fetchingSplit with
        | some i => Run.fetch ⟨g, { x with fetching := false }, i, x.split i, x.team, t⟩ s k
        | none =>
          match ({ x with fetching := false } : Group).pick with
          | (_, none) => .refused .notEnabled
          | (x1, some i) =>
            if !(x1.split i).atBoundary then .next (s.setGroup g x1)
            else
              let (x2, j) := x1.merge i
              let s1 := if 1 < (x1.mergeSet i).length then s.traceSplit x1 1 (x2.split j).mask j 0 else s
              Run.fetch ⟨g, x2, j, x2.split j, x.team, t⟩ (s1.setGroup g x2) k
    | _, _ => .refused .notEnabled

/-! ### Issue of the next word -/

/-- The granules of vector registers an instruction names (R159). -/
def granulesOf (i : Instr) : List Nat :=
  i.vecOperands.flatMap fun (r, n) => [r.toNat / 8, (r.toNat + n - 1) / 8]

/-- The count up to which a group yields that issues a yield, or the last word of a clause with SW, in this cycle: the end of the
next one (R32, R217). -/
def State.yieldEnd (s : State) (core : Nat) : Nat := nextCycle (s.cyc1000 core) + 1000

/-- Issue the next word of the running split: the instruction, and the state in which it is performed; the group's run of eligible
cycles starts again in the next cycle (R152). None where the
split stands at a boundary, its island is stopped, or the group waits for its register-store lines (R17, R32, R159). A word the map refuses raises its
trap. -/
def Run.nextInstr (r : Run) (s : State) : Option (Sum Out (Instr × State)) :=
  if r.sp.atBoundary || (s.island (islandOf r.g.core)).stopped then none
  else
    let sp := { r.sp with pos := r.sp.nxt }
    match decode (s.mapOf r.t.asid) (sp.words.drop sp.pos) with
    | .error e =>
      let r' := { r with sp := sp }
      some (.inl (r'.trap s (if e == .illegalOpcode then trapIllegalOpcode else trapReservedField) 0))
    | .ok (i, rest) =>
      if r.g.toLoad.contains 0 || ((granulesOf i).any fun q => r.g.toLoad.contains (q + 1)) then none
      else
        let sp1 := { sp with nxt := sp.words.length - rest.length }
        let g1 := { (r.g.setSplit r.slot sp1) with
          elig := some (nextCycle (s.cyc1000 r.g.core))
          yieldTo := if sp1.switches then s.yieldEnd r.g.core else r.g.yieldTo }
        let s1 := (r.put s g1).modCore r.g.core fun c =>
          { c with issued := dset c.issued r.t.asid (dgetD c.issued r.t.asid 0 + 1),
                   last0 := if r.g.grp % 2 = 0 then r.g.slot else c.last0,
                   last1 := if r.g.grp % 2 = 0 then c.last1 else r.g.slot,
                   lastOld := if r.g.grp % 2 = 0 then c.last0 else c.last1 }
        some (.inr (i, s1))

/-! ### Lane traps, asynchronous traps (R377, R279, R305) -/

/-- Every READY split of the group stands at a clause boundary; one held at a fence stands at none. -/
def Group.atBoundaries (g : Group) : Bool := g.splits.all fun sp => !sp.fenced && (!sp.ready || sp.atBoundary)

/-- The team goes on, on its core or away from it. -/
def Team.alive (t : Team) : Bool := t.st == .running || t.st == .preempted || t.st == .swapped

/-- LANE_FAULT_TIMEOUT: the group takes LANE_FAULT 1,048,576 cycles after its first fatal cause, at its READY splits'
next clause boundary (R377). -/
def execLaneFaultTimeout (g : Nat) (s : State) : Out :=
  match dget s.groups g with
  | some x =>
    let alive := ((dget s.teams x.team).map Team.alive).getD false
    if alive && x.st == .live && s.faultsDue x && x.atBoundaries then .next (s.laneFault g x) else .refused .notEnabled
  | none => .refused .notEnabled

/-- The cause of a stopped porter command enters the faulted-lane set for the lanes of its issue mask that are still active, or for
every active lane where none of them is (R144, R305). -/
def Group.porterFault (g : Group) (cyc : Nat) (mask : LaneMask) (c : LaneCause) : Group :=
  let live := g.splits.foldl (fun m sp => if sp.isFree then m else m ||| sp.mask) 0
  let m := if mask &&& live == 0 then live else mask &&& live
  if m == 0 then g else g.lateFault cyc ((lanesOf m).map fun l => { c with lane := l })

/-- ASYNC_CREDIT_TRAP: at its next clause boundary the group takes the traps of asynchronous credits that failed (R279),
and records the causes of its stopped porter commands (R305). -/
def execAsyncCreditTrap (g : Nat) (s : State) : Out :=
  match dget s.groups g with
  | some x =>
    if x.st != .live || !x.atBoundaries || (x.asyncTraps.isEmpty && x.pendStops.isEmpty) then .refused .notEnabled
    else
      let x2 := x.pendStops.foldl (fun g p => g.porterFault (s.cyc1000 x.core) p.1 p.2) { x with asyncTraps := [], pendStops := [] }
      let s1 := x.asyncTraps.foldl (fun s tr => s.takeTrap g x2 tr) (s.setGroup g x2)
      .next (s1.settle g)
  | none => .refused .notEnabled

/-! ### Spilling (R140, R145, R146) -/

/-- A split divides: the taken lanes form a new READY split at the target in a FREE slot (R140). -/
def Run.divide (r : Run) (s : State) (taken : LaneMask) (target j : Nat) : Out :=
  let rest := { r.sp with mask := r.sp.mask &&& ~~~taken, st := .ready, brd := 0 }
  let new : Split := { Split.empty with st := .ready, pc := target, mask := taken, past := r.sp.past }
  r.finish (s.traceSplit r.g 0 taken j 0) ((r.g.setSplit r.slot rest).setSplit j new)

/-- The registers of a thread of a group, within its role's budget. -/
def Group.threadRegs (g : Group) (lane granules : Nat) : Sparse Word :=
  (List.range (8 * granules)).foldl (fun m r => sset 0 m r (g.vreg r lane)) []

/-- A thread enters a bin, with the stores its group has in flight; the bin closes at its 32nd (R147, R241). -/
def Bin.enter (b : Bin) (cyc : Nat) (past : List Nat) (th : Nat × Sparse Word) : Bin :=
  let b1 := { b with threads := b.threads ++ [th], past := (b.past ++ past).eraseDups }
  if b1.threads.length = 32 then b1.close cyc else b1

/-- Put one thread into the bins of its core: an open bin with its key and room, else a new bin; none where there is
none (R146). -/
def Core.binThread (c : Core) (cyc limit : Nat) (key : Bin) (th : Nat × Sparse Word) : Option Core :=
  let same (b : Bin) : Bool :=
    b.closed.isNone && b.team == key.team && b.role == key.role && b.target == key.target && b.scalars == key.scalars
      && b.fmode == key.fmode && b.threads.length < 32 && cyc < b.opened1000 + 512000
  match c.bins.find? fun e => same e.2 with
  | some (n, b) => some { c with bins := dset c.bins n (b.enter cyc key.past th) }
  | none =>
    match (List.range 16).find? fun n => (dget c.bins n).isNone with
    | some n =>
      if limit ≤ (c.bins.filter fun e => e.2.team == key.team).length then none
      else some { c with bins := dset c.bins n { key with threads := [th], opened1000 := cyc } }
    | none => none

/-- Put threads into bins, all or none (R146). -/
def Core.binThreads (c : Core) (cyc limit : Nat) (key : Bin) : List (Nat × Sparse Word) → Option Core
  | [] => some c
  | th :: ths =>
    match c.binThread cyc limit key th with
    | some c1 => Core.binThreads c1 cyc limit key ths
    | none => none

/-- A split of a group as a Run, running or not. -/
def State.splitRun (s : State) (gid slot : Nat) : Option Run :=
  match dget s.groups gid with
  | some g =>
    match dget s.teams g.team with
    | some t => some ⟨gid, g, slot, g.split slot, g.team, t⟩
    | none => none
  | none => none

/-- The core with a split's taken lanes in the bins of its plaiter; none where it has no room for them all (R146). -/
def Run.inBins (r : Run) (s : State) (lanes : LaneMask) (target : Nat) : Option Core :=
  match dget s.kernels r.t.kernel with
  | none => none
  | some k =>
    let past := r.sp.past.filter fun w => (dget s.flight w).isSome
    let key : Bin := ⟨r.tid, r.g.role, target, r.g.s, r.g.fmode, [], 0, none, past⟩
    let away := (s.cores.filter fun c => c.1 != r.t.core).foldl (fun n c => n + (c.2.bins.filter fun e => e.2.team == r.tid).length) 0
    let ths := (lanesOf lanes).map fun l => (r.g.tid.getD l 0, r.g.threadRegs l (k.granules r.g.role))
    (s.core r.t.core).binThreads (s.cyc1000 r.t.core) (k.field 364 360 + 1 - away) key ths

/-- The spill of a split's taken lanes once the counters are zero (R145, R146). A split of which no lane is left is FREE (R135). -/
def Run.spillNow (r : Run) (s : State) (lanes : LaneMask) (target : Nat) : Out :=
  match r.inBins s lanes target with
  | some c =>
    -- the spill is a release at team scope (R241)
    let s := s.leave (s.releasable r.gid) 1
    let left := r.sp.mask &&& ~~~lanes
    let sp := if left == 0 then r.sp.freed else { r.sp with mask := left, st := .blocked .spillWrite, brd := 0 }
    let s1 := (s.setCore r.t.core c).traceSplit r.g 4 lanes r.slot 0
    r.finish s1 { (r.g.setSplit r.slot sp) with spilled := r.g.spilled ||| lanes }
  | none => r.finish s (r.g.setSplit r.slot { r.sp with st := .blocked (.spillWait lanes target), brd := 0 })

/-- The counters are zero, and the accesses that the spill releases are performed, or need not be at team scope (R145, R241). -/
def Run.maySpill (r : Run) (s : State) : Bool := r.g.waitMet 0x3F && (s.releasable r.gid).all s.leavable

/-- SPILL: the counters of the group are zero and its spilling lanes leave for the plaiter, or the split waits for a bin. One that
waits turns READY when a bin has room or a slot has become FREE, and its BRD issues again with the lanes it took (R135, R140, R145,
R146). Nothing spills of a team that is not running on its core (R137, R157). -/
def execSpill (g slot : Nat) (s : State) : Out :=
  match s.splitRun g slot with
  | none => .refused .notEnabled
  | some r =>
    if r.g.st != .live || r.t.st != .running then .refused .notEnabled
    else
      match r.sp.st with
      | .blocked (.spilling lanes target) =>
        if r.maySpill s then r.spillNow s lanes target else .refused .notEnabled
      | .blocked (.spillWait lanes target) =>
        if r.g.freeSlot.isSome || (r.inBins s lanes target).isSome then
          r.finish s (r.g.setSplit r.slot { r.sp with st := .ready, nxt := r.sp.pos, brd := lanes })
        else .refused .notEnabled
      | _ => .refused .notEnabled

/-- A BLOCKED split whose condition is met turns READY. -/
def Run.wake (r : Run) (s : State) : Out := r.finish s (r.g.setSplit r.slot { r.sp with st := .ready })

/-- SPILL_WRITE_DONE: the spilled lanes are in spawn memory and the fall-through split goes on (R145). -/
def execSpillWriteDone (g slot : Nat) (s : State) : Out :=
  match s.splitRun g slot with
  | some r =>
    match r.sp.st with
    | .blocked .spillWrite => r.wake s
    | _ => .refused .notEnabled
  | none => .refused .notEnabled

/-! ### Bins and foster groups (R147 to R149) -/

/-- BIN_CLOSE_TIMEOUT: a bin closes 512 cycles after its first thread entered (R147), or, as no bin closes while its team is away
(R157), when that is back; the bin of a team that stops is emptied (R138). -/
def execBinCloseTimeout (core bin : Nat) (s : State) : Out :=
  let c := s.core core
  match dget c.bins bin with
  | none => .refused .notEnabled
  | some b =>
    match dget s.teams b.team with
    | none => .refused .notEnabled
    | some t =>
      if b.closed.isSome || s.cyc1000 core < b.opened1000 + 512000 then .refused .notEnabled
      else if t.st == .running then
        .next (s.setCore core { c with bins := dset c.bins bin (b.close (s.cyc1000 core)) })
      else if t.st == .wounded || t.st == .halting then .next (s.setCore core { c with bins := ddel c.bins bin })
      else .refused .notEnabled

/-- The team is placed and not away: its groups' slots are taken (R125). -/
def Team.present (t : Team) : Bool := !t.offCore && t.st != .retired

/-- Group slots of a core that its placed teams hold (R125, R148): those of every group, but for a slot of choice 2
whose foster group has ENDED. -/
def State.slotsHeld (s : State) (core : Nat) : List Nat :=
  (s.groups.filter fun e =>
    e.2.core == core && !(e.2.extraSlot && e.2.st != .live) && e.2.st != .stoodDown
      && ((dget s.teams e.2.team).map Team.present).getD false).map fun e => e.2.slot

/-- The free group slots of a core, ascending. -/
def State.slotsFree (s : State) (core : Nat) : List Nat :=
  (List.range 48).filter fun n => !(s.slotsHeld core).contains n

/-- A slot that the team keeps and no live group of it uses, the lowest first (R148 choice 1). -/
def State.keptSlot (s : State) (tid : Nat) : Option Nat :=
  let gs := s.groupsOf tid
  let used := (gs.filter fun e => e.2.st == .live).map fun e => e.2.slot
  (List.range 48).find? fun n => !used.contains n && gs.any fun e => e.2.slot == n && !e.2.extraSlot && e.2.st == .ended

/-- The reasons of R148 choice 3. -/
def Split.standable (sp : Split) : Bool :=
  match sp.st with
  | .free => true
  | .blocked (.waitc ..) => true
  | .blocked (.timewait _) => true
  | .blocked (.sleep _) => true
  | .blocked (.bwaitp ..) => true
  | .blocked (.bwait _) => true
  | .blocked (.launch ..) => true
  | .blocked (.spillWait ..) => true
  | _ => false

/-- The group may be stood down (R148 choice 3). -/
def Group.standable (g : Group) : Bool :=
  g.st == .live && g.marked == 0 && g.waitMet 0x3F && g.splits.all Split.standable && g.splits.any Split.isBlocked

/-- Lowest free foster number of a team (R147). -/
def State.fosterNumber (s : State) (tid : Nat) : Option Nat :=
  ((List.range 32).map (· + 32)).find? fun n => !((s.groupsOf tid).any fun e => e.2.grp == n && e.2.st != .ended)

/-- Some stood-down group of a placed team on the core waits for a slot. -/
def State.standingBy (s : State) (core : Nat) (own : Option Nat) : Bool :=
  s.groups.any fun e =>
    e.2.core == core && e.2.st == .stoodDown && (own.isNone || own == some e.2.team)
      && ((dget s.teams e.2.team).map fun t => t.st == .running).getD false

/-- A team can take a foster group now: it runs, has a number, and a slot by one of the preferences of R148. -/
def State.mayFoster (s : State) (tid : Nat) : Bool :=
  match dget s.teams tid with
  | none => false
  | some t =>
    t.st == .running && !s.leaving tid t && (s.fosterNumber tid).isSome
      && match s.keptSlot tid, s.slotsFree t.core with
        | some _, _ => !s.standingBy t.core (some tid)
        | none, _ :: _ => !s.standingBy t.core none
        | none, [] => (s.groupsOf tid).any fun e => e.2.standable

/-- The foster group of a bin in a slot (R149). -/
def Bin.foster (b : Bin) (core num slot : Nat) (extra : Bool) : Group :=
  let ths := sortOn Prod.fst b.threads
  let n := ths.length
  let m := maskOf (List.range n)
  { team := b.team, core := core, grp := num, role := b.role, slot := slot, extraSlot := extra, st := .live,
    v := (ths.zipIdx).foldl (fun v (th, l) => th.2.foldl (fun v e => sset 0 v (32 * e.1 + l) e.2) v) [],
    s := b.scalars, fmode := b.fmode, tid := ths.map Prod.fst, holds := m, dc := [0, 0, 0, 0, 0, 0],
    splits := [{ Split.empty with st := .ready, pc := b.target, mask := m, past := b.past }, Split.empty, Split.empty, Split.empty],
    run := none, last := 3, faulted := 0, causes := [], ended := 0, spilled := 0, marked := 0, markedSlot := 0,
    markedPages := [], saved := 0, batchL := 0, batchOpen := none, batches := [], score := 0, toLoad := [],
    dbgHeld := false, faultSince := none, asyncTraps := [], pendStops := [], elig := none, idleTo := 0, yieldTo := 0,
    memOk := none, fetching := false }

/-- The place of a closed bin in the order in which bins become foster groups: the cycle it closed in, then its number (R147). -/
def Bin.order (b : Bin) (n : Nat) : Option Nat := b.closed.map fun cyc => cyc / 1000 * 16 + n

/-- FOSTER_GROUP_FORM: a closed bin becomes a foster group in a slot by the preferences of R148; under the third, a
waiting group is stood down (R147 to R149). The bins of a core go in the order in which they closed, and one whose team lacks a
number or a slot holds back none of another team. A team that has moved takes the threads of a bin on its old core to the core it
is on (log 53). -/
def execFosterGroupForm (core bin : Nat) (s : State) : Out :=
  let c := s.core core
  match dget c.bins bin with
  | none => .refused .notEnabled
  | some b =>
    match dget s.teams b.team, b.order bin, s.fosterNumber b.team with
    | some t, some ord, some num =>
      let earlier := c.bins.any fun e =>
        (e.2.team == b.team || s.mayFoster e.2.team) && ((e.2.order e.1).map fun o => decide (o < ord)).getD false
      if t.st != .running || s.leaving b.team t || earlier then .refused .notEnabled
      else
        let core' := t.core
        let form (s : State) (slot : Nat) (extra : Bool) : Out :=
          let g := b.foster core' num slot extra
          let s1 := { s.bump with groups := dset s.groups s.nextId g }
          let s2 := s1.modCore core fun c => { c with bins := ddel c.bins bin }
          .next (s2.traceSplit g 5 g.holds 0 num)
        match s.keptSlot b.team, s.slotsFree core' with
        | some n, _ => if s.standingBy core' (some b.team) then .refused .notEnabled else form s n false
        | none, n :: _ => if s.standingBy core' none then .refused .notEnabled else form s n true
        | none, [] =>
          match sortOn (fun e => e.2.grp) ((s.groupsOf b.team).filter fun e => e.2.standable) with
          | [] => .refused .notEnabled
          | (gid, g) :: _ =>
            let s1 := (s.setGroup gid { g with st := .stoodDown, run := none }).releaseToken core' gid
            form (s1.traceSplit g 6 g.holds 0 (if 32 ≤ g.grp then g.grp else 0)) g.slot false
    | _, _, _ => .refused .notEnabled

/-- STOOD_DOWN_RETURN: a stood-down group takes a slot that is free, its team's first. It is no slot of choice 2 of R148: the team
keeps it when the group ENDS (R136, R148, log 53). -/
def execStoodDownReturn (g : Nat) (s : State) : Out :=
  match dget s.groups g with
  | some x =>
    let running := ((dget s.teams x.team).map fun t => t.st == .running).getD false
    if x.st != .stoodDown || !running then .refused .notEnabled
    else
      let back (slot : Nat) : Out :=
        let x1 := { x with st := .live, slot := slot, extraSlot := false }
        .next (((s.setGroup g x1).traceSplit x1 7 x.holds 0 (if 32 ≤ x.grp then x.grp else 0)).settle g)
      match s.keptSlot x.team, s.slotsFree x.core with
      | some n, _ => back n
      | none, n :: _ => back n
      | none, [] => .refused .notEnabled
  | none => .refused .notEnabled

/-! ### Waits that end, wakes -/

/-- TIMEWAIT_EXPIRY: the time stamp has reached the target (R216). -/
def execTimewaitExpiry (g slot : Nat) (s : State) : Out :=
  match s.splitRun g slot with
  | some r =>
    match r.sp.st with
    | .blocked (.timewait n) => if n ≤ s.pk.gts then r.wake s else .refused .notEnabled
    | _ => .refused .notEnabled
  | none => .refused .notEnabled

/-- SLEEP_EXPIRY: the island cycles of a sleep have passed (R217). -/
def execSleepExpiry (g slot : Nat) (s : State) : Out :=
  match s.splitRun g slot with
  | some r =>
    match r.sp.st with
    | .blocked (.sleep n) => if n ≤ s.cyc1000 r.t.core then r.wake s else .refused .notEnabled
    | _ => .refused .notEnabled
  | none => .refused .notEnabled

/-- A group's score counts on its core: its team has not left that core (R153, log 24). -/
def State.scored (s : State) (g : Group) : Bool := ((dget s.teams g.team).map Team.present).getD false

/-- The sum of the scores of a core's groups whose teams pass a test (R153). -/
def State.scores (s : State) (core : Nat) (p : Team → Bool) : Nat :=
  s.groups.foldl (fun n e =>
    if e.2.core == core && s.scored e.2 && ((dget s.teams e.2.team).map p).getD false then n + e.2.score else n) 0

/-- MC by LL (R154). -/
def memcapOf (ll : Nat) : Nat := if ll < 64 then 48 else if ll < 128 then 32 else if ll < 256 then 16 else if ll < 512 then 8 else 4

/-- MEMCAP_UPDATE: every 1,024 island cycles the cap is set from the core's score, the groups that come first in (team age, %grp)
order are admitted until the next setting, and every score is halved (R153, R154). -/
def execMemcapUpdate (core : Nat) (s : State) : Out :=
  let c := s.core core
  if s.cyc1000 core < c.capAt1000 + 1024000 then .refused .notEnabled
  else
    let ll := min (2 ^ 32 - 1) (s.scores core fun _ => true)
    let age (g : Group) : Nat := ((dget s.teams g.team).map fun t => t.age.toNat).getD 0
    let ok (g : Group) : Option Bool := if s.onCore core g then some (s.memRank g (age g) < memcapOf ll) else none
    .next { s.setCore core { c with memcap := memcapOf ll, capAt1000 := c.capAt1000 + 1024000 } with
      groups := s.groups.map fun e =>
        if e.2.core == core && s.scored e.2 then (e.1, { e.2 with score := e.2.score / 2, memOk := ok e.2 }) else e }

/-- REGISTER_STORE_FILL: a line of the group's image is loaded: 0 the scalar image, 1 + n granule n (R159). -/
def execRegisterStoreFill (g line : Nat) (s : State) : Out :=
  match dget s.groups g with
  | some x =>
    if x.toLoad.contains line then .next (s.setGroup g { x with toLoad := x.toLoad.filter (· != line) })
    else .refused .notEnabled
  | none => .refused .notEnabled

/-- The splits of a group that wait for a page turn READY and replay, and so do its marked lanes; the cause of a failed
promotion is carried to the replay (R143, R261). -/
def Group.wakePage (g : Group) (page cause : Nat) : Group :=
  let doom := fun (sp : Split) => if cause = 0 then sp.doom else (page, cause) :: sp.doom
  let g1 := { g with splits := g.splits.map fun sp =>
      if sp.st == .parked && sp.pages.contains page then { sp with st := .ready, pages := [], doom := doom sp } else sp }
  if g1.faultWait && g1.markedPages.contains page then
    let sp := g1.split g1.markedSlot
    { (g1.setSplit g1.markedSlot { sp with mask := g1.marked, nxt := sp.pos, doom := doom sp }) with
        saved := sp.mask, run := some g1.markedSlot }
  else g1

/-- Porter accesses that wait for a page whose promotion failed take the cause (R261); others go on. -/
def State.wakePorter (s : State) (core page cause : Nat) : State :=
  let hit (t : Team) (u : Access) : Bool :=
    u.st == .held && ((s.pageAt t.asid u.addr).map fun e => pageId e.1 e.2.1 == page).getD false
  let fail (id : Nat) (s : State) : State :=
    match dget s.flight id with
    | some o =>
      match o.work, dget s.teams o.team with
      | .mem m, some t =>
        { s with flight := dset s.flight id { o with work := .mem { m with
            units := m.units.map fun u => if hit t u then { u with st := .failed cause } else u } } }
      | _, _ => s
    | none => s
  let waits := (s.core core).porter.filter fun p => p.pages.contains page
  let s1 := if cause = 0 then s else waits.foldl (fun s p => fail p.op s) s
  s1.modCore core fun c => { c with porter := c.porter.map fun p => { p with pages := p.pages.filter (· != page) } }

/-- The team is on a core or has been on it since its placement or restart: a wake that reaches the core is for it too (R261). -/
def Team.heldBy (t : Team) (core : Nat) : Bool := t.core == core || t.cores.contains core

/-- Accesses of a core's teams that are parked for a page translate afresh, or take the cause of its failed promotion (R261,
R264). -/
def State.wakeParked (s : State) (core page cause : Nat) : State :=
  let wake (u : Access) : Access :=
    if u.st == .parked page then { u with st := if cause = 0 then .pending else .failed cause } else u
  let here (e : Nat × Op) : Bool := ((dget s.teams e.2.team).map fun t => t.heldBy core).getD false
  { s with flight := s.flight.map fun e =>
      match e.2.work with
      | .mem m => if here e then (e.1, { e.2 with work := .mem { m with units := m.units.map wake } }) else e
      | _ => e }

/-- CORE_WAKE: a wake for a page reaches a core: the splits parked on it and the groups in FAULT_WAIT for it replay, and
porter commands that wait on it go on (R143, R261, R305). Those of a team that stops stay as they are (R262, R391). -/
def execCoreWake (core asid va : Nat) (s : State) : Out :=
  match (s.core core).wakes.find? fun w => w.1 == asid && w.2.1 == va with
  | none => .refused .notEnabled
  | some w =>
    let page := pageId asid va
    let hit := s.groups.filter fun e =>
      e.2.st != .ended
        && ((dget s.teams e.2.team).map fun t => t.heldBy core && t.st != .halting && t.st != .wounded).getD false
    let s1 := hit.foldl (fun s e =>
      let woken := (e.2.splits.zipIdx).filter fun x => x.1.st == .parked && x.1.pages.contains page
      let s1 := woken.foldl (fun s x => s.traceSplit e.2 3 x.1.mask x.2 0) (s.modGroup e.1 fun g => g.wakePage page w.2.2)
      if e.2.faultWait && e.2.markedPages.contains page then s1.traceSplit e.2 3 (e.2.split e.2.markedSlot).mask e.2.markedSlot 0 else s1) s
    .next (((s1.wakePorter core page w.2.2).wakeParked core page w.2.2).modCore core fun c => { c with wakes := c.wakes.erase w })

end Sys2Proof.Machine
end

