-- ==== Sys2Proof/Machine/Mailbox.lean ====
section
/-!
DEFINITION. The mailbox (20_host_power.md R400 to R402): result codes, posting responses, taking requests in ring order,
and the host's register writes. Requests and responses are typed (log 12).
-/
namespace Sys2Proof.Machine

/-! ### Result codes (R95, R108, R257, R391, R392, R400) -/

/-- OK (R95). -/
def codeOk : Nat := 0
/-- BAD_STATE (R95). -/
def codeBadState : Nat := 1
/-- NO_CONTEXT (R95). -/
def codeNoContext : Nat := 2
/-- NO_ARENA (R95). -/
def codeNoArena : Nat := 3
/-- BAD_MAP (R95). -/
def codeBadMap : Nat := 4
/-- BAD_FREQ (R95). -/
def codeBadFreq : Nat := 5
/-- BAD_HASH (R95). -/
def codeBadHash : Nat := 6
/-- BAD_RECORD (R95). -/
def codeBadRecord : Nat := 7
/-- BAD_CREDENTIAL (R95). -/
def codeBadCredential : Nat := 8
/-- NO_SUCH_CONTEXT (R95). -/
def codeNoSuchContext : Nat := 9
/-- NO_QUEUE (R108). -/
def codeNoQueue : Nat := 0x0A
/-- QUEUE_FULL (R108). -/
def codeQueueFull : Nat := 0x0B
/-- BAD_LAUNCH (R108). -/
def codeBadLaunch : Nat := 0x0C
/-- BAD_VA (R257). -/
def codeBadVa : Nat := 0x0D
/-- SYNONYM (R257). -/
def codeSynonym : Nat := 0x0E
/-- NO_MEMORY (R257). -/
def codeNoMemory : Nat := 0x0F
/-- PAGE_BUSY (R257). -/
def codePageBusy : Nat := 0x10
/-- BAD_ATTR (R257). -/
def codeBadAttr : Nat := 0x11
/-- BAD_LINK (R392). -/
def codeBadLink : Nat := 0x17
/-- NO_WINDOW (R392). -/
def codeNoWindow : Nat := 0x18
/-- BAD_FRAME (R402). -/
def codeBadFrame : Nat := 0x19
/-- BAD_POINT (R403). -/
def codeBadPoint : Nat := 0x1A

/-! ### Responses (R400, R401) -/

/-- A − B of two 32-bit counts. -/
def ringGap (a b : Nat) : Nat := (a + 2 ^ 32 - b) % 2 ^ 32

/-- An MSI-X vector is signalled: the count of its messages goes up (R400). -/
def State.signal (s : State) (v : Nat) : State :=
  { s with pk := { s.pk with msix := s.pk.msix.modify v (· + 1) } }

/-- Post a response: its payload goes into the area of its request's slot, then the frame into the next response slot,
with vector 0 (R400, R401). -/
def State.post (s : State) (r : Response) : State :=
  let area := bar2Key (0x10000 * (r.tag / 2 ^ 64 % 32))
  let s1 : State := { s with
    mem := s.mem.writeN area (r.bytes.take 65536)
    pk := { s.pk with rspSlots := dset s.pk.rspSlots (s.pk.rspProd % 32) r, rspProd := (s.pk.rspProd + 1) % 2 ^ 32 } }
  s1.signal 0

/-- The ring of responses has a free slot, and no earlier response is held (R400). -/
def State.roomToPost (s : State) : Bool := ringGap s.pk.rspProd s.pk.rspCons < 32 && s.pk.held.isEmpty

/-- Answer the request of a tag: the response is posted, or held until the host advances RSP_CONS (R400). -/
def State.respondTo (s : State) (tag code : Nat) (data : List DWord) (bytes : List Byte) : State :=
  let r : Response := ⟨tag, code, data, bytes⟩
  if s.roomToPost then s.post r else { s with pk := { s.pk with held := s.pk.held ++ [r] } }

/-- Answer the request being served. -/
def State.respond (s : State) (code : Nat) (data : List DWord) (bytes : List Byte) : State :=
  s.respondTo s.tag code data bytes

/-- The answer of a command that returns a code only. -/
def State.answer (s : State) (code : Nat) : Out := .next (s.respond code [] [])

/-- A refusal for which the manual names no code: some code other than OK, a free value (log 12). -/
def State.answerUnstated (s : State) : Out := .next (s.useFree.respond (1 + Config.freeNat s.freeCtr % 255) [] [])

/-- Held responses that are posted now that there is room (R400). -/
def State.postHeld : Nat → State → State
  | 0, s => s
  | n + 1, s =>
    match s.pk.held with
    | [] => s
    | r :: rs =>
      if ringGap s.pk.rspProd s.pk.rspCons < 32 then
        State.postHeld n ({ s with pk := { s.pk with held := rs } }.post r)
      else s

/-! ### Serving commands (R94, R405, R406) -/

/-- A command before READY stays in its slot; in recovery it is refused with BAD_STATE (R405, R406). -/
def onCommand (s : State) (k : Out) : Out :=
  match s.pk.phase with
  | .ready => k
  | .recovery => s.answer codeBadState
  | _ => .refused .notEnabled

/-- A command of a context: an ASID with no live context is refused (R94). -/
def onContext (s : State) (asid : Nat) (k : Ctx → Out) : Out :=
  onCommand s (match dget s.ctxs asid with
    | some c => k c
    | none => s.answer codeNoSuchContext)

/-- A command of a context that is permitted in some of its states only (R94). -/
def onContextIn (s : State) (asid : Nat) (sts : List CtxSt) (k : Ctx → Out) : Out :=
  onContext s asid fun c => if sts.contains c.st then k c else s.answer codeBadState

/-- ARMED, ACTIVE and SUSPENDED (R257, R392). -/
def statesServing : List CtxSt := [.armed, .active, .suspended]

/-! ### Taking requests (R400 to R402) -/

/-- The context a command names, if any. -/
def cmdAsid (i : Instr) : Option Nat :=
  match i with
  | .ctxArm a .. | .ctxActivate a | .ctxSuspend a | .ctxResume a | .ctxDrain a _ | .ctxQuery a | .dumpRead a ..
  | .traceRead a .. | .qCreate a .. | .qActivate a _ | .qPause a _ | .qResume a _ | .qDrain a .. | .qEnq a ..
  | .qQuery a _ | .pgMap a .. | .pgUnmap a .. | .pgProtect a .. | .pgMigrate a .. | .pgSethash a .. | .pgEvict a ..
  | .pgPromote a .. | .pgQuery a _ | .shAttach a .. | .pchQuery a .. | .urXlate a .. | .urReturn a .. | .poolDefine a _
  | .dbgAttach a | .dbgDetach a | .dbgHold a .. | .dbgRelease a .. | .dbgSnap a .. | .dbgWrite a .. | .expCreate a ..
  | .expDestroy a _ | .xferIn a .. | .xferOut a .. => some a
  | _ => none

/-- The code of a context, queue, page or pool command in its frame (R94, R108, R257, R334). -/
def contextCode (i : Instr) : Option Nat :=
  match i with
  | .ctxCreate .. => some 0x01
  | .ctxArm .. => some 0x02
  | .ctxActivate _ => some 0x03
  | .ctxSuspend _ => some 0x04
  | .ctxResume _ => some 0x05
  | .ctxDrain .. => some 0x06
  | .ctxQuery _ => some 0x07
  | .dumpRead .. => some 0x08
  | .traceRead .. => some 0x09
  | .qCreate .. => some 0x10
  | .qActivate .. => some 0x11
  | .qPause .. => some 0x12
  | .qResume .. => some 0x13
  | .qDrain .. => some 0x14
  | .qEnq .. => some 0x15
  | .qQuery .. => some 0x16
  | .pgMap .. => some 0x20
  | .pgUnmap .. => some 0x21
  | .pgProtect .. => some 0x22
  | .pgMigrate .. => some 0x23
  | .pgSethash .. => some 0x24
  | .pgEvict .. => some 0x25
  | .pgPromote .. => some 0x26
  | .pgQuery .. => some 0x27
  | .shAttach .. => some 0x28
  | .pchQuery .. => some 0x29
  | .urXlate .. => some 0x2A
  | .urReturn .. => some 0x2B
  | .poolDefine .. => some 0x30
  | _ => none

/-- The code of a command in its frame (R388, R392, R402, R403), none for a step that is no mailbox command. -/
def commandCode (i : Instr) : Option Nat :=
  match i with
  | .dbgAttach _ => some 0x40
  | .dbgDetach _ => some 0x41
  | .dbgHold .. => some 0x42
  | .dbgRelease .. => some 0x43
  | .dbgSnap .. => some 0x44
  | .dbgWrite .. => some 0x45
  | .lkConfig .. => some 0x50
  | .lkEnable _ => some 0x51
  | .lkDisable _ => some 0x52
  | .lkReset _ => some 0x53
  | .lkQuery _ => some 0x54
  | .trustAdd _ => some 0x55
  | .expCreate .. => some 0x56
  | .expDestroy .. => some 0x57
  | .devInfo => some 0x60
  | .devAttest _ => some 0x61
  | .sensorRead => some 0x62
  | .islandSet .. => some 0x63
  | .pwrLimit _ => some 0x64
  | .xferIn .. => some 0x65
  | .xferOut .. => some 0x66
  | .fwUpdate _ => some 0x67
  | i => contextCode i

/-- The step is a mailbox command. -/
def isCommand (i : Instr) : Bool := (commandCode i).isSome

/-- The payload of a command, which follows its frame in BAR2: the blocks and images of R401, and what no slot of 1 KiB holds (log 12). -/
def payloadOf (i : Instr) : List Byte :=
  match i with
  | .ctxCreate _ d | .ctxArm _ _ d | .dumpRead _ _ _ d | .traceRead _ _ _ d | .xferIn _ _ d | .fwUpdate d => d
  | _ => []

/-- A command with another payload. -/
def withPayload (d : List Byte) (i : Instr) : Instr :=
  match i with
  | .ctxCreate m _ => .ctxCreate m d
  | .ctxArm a r _ => .ctxArm a r d
  | .dumpRead a n q _ => .dumpRead a n q d
  | .traceRead a c q _ => .traceRead a c q d
  | .xferIn a v _ => .xferIn a v d
  | .fwUpdate _ => .fwUpdate d
  | i => i

/-- A command of another context. -/
def withAsid (a : Nat) (i : Instr) : Instr :=
  match i with
  | .ctxArm _ r d => .ctxArm a r d
  | .ctxActivate _ => .ctxActivate a
  | .ctxSuspend _ => .ctxSuspend a
  | .ctxResume _ => .ctxResume a
  | .ctxDrain _ c => .ctxDrain a c
  | .ctxQuery _ => .ctxQuery a
  | .dumpRead _ n q g => .dumpRead a n q g
  | .traceRead _ c q g => .traceRead a c q g
  | .qCreate _ p c => .qCreate a p c
  | .qActivate _ q => .qActivate a q
  | .qPause _ q => .qPause a q
  | .qResume _ q => .qResume a q
  | .qDrain _ q c => .qDrain a q c
  | .qEnq _ q r => .qEnq a q r
  | .qQuery _ q => .qQuery a q
  | .pgMap _ v n t l => .pgMap a v n t l
  | .pgUnmap _ v n => .pgUnmap a v n
  | .pgProtect _ v n r w x => .pgProtect a v n r w x
  | .pgMigrate _ v k => .pgMigrate a v k
  | .pgSethash _ v n m => .pgSethash a v n m
  | .pgEvict _ v n => .pgEvict a v n
  | .pgPromote _ v n => .pgPromote a v n
  | .pgQuery _ v => .pgQuery a v
  | .shAttach _ h b n => .shAttach a h b n
  | .pchQuery _ k c => .pchQuery a k c
  | .urXlate _ v n w p => .urXlate a v n w p
  | .urReturn _ v n => .urReturn a v n
  | .poolDefine _ d => .poolDefine a d
  | .dbgAttach _ => .dbgAttach a
  | .dbgDetach _ => .dbgDetach a
  | .dbgHold _ k t m => .dbgHold a k t m
  | .dbgRelease _ k t m => .dbgRelease a k t m
  | .dbgSnap _ k t => .dbgSnap a k t
  | .dbgWrite _ k t g x n m v => .dbgWrite a k t g x n m v
  | .expCreate _ b n r w x p => .expCreate a b n r w x p
  | .expDestroy _ w => .expDestroy a w
  | .xferIn _ v d => .xferIn a v d
  | .xferOut _ v n => .xferOut a v n
  | i => i

/-- A command that has no operands but the context named in its header. -/
def bareCommand (code : Nat) : Option Instr :=
  [Instr.ctxActivate 0, .ctxSuspend 0, .ctxResume 0, .ctxQuery 0, .dbgAttach 0, .dbgDetach 0, .devInfo, .sensorRead, .fwUpdate []].find?
    fun i => commandCode i == some code

/-- A header from its fields (R402). -/
def frameHeader (len asid code tag : Nat) : BitVec 128 :=
  BitVec.ofNat 32 len ++ BitVec.ofNat 16 asid ++ BitVec.ofNat 8 code ++ 0#8 ++ BitVec.ofNat 64 tag

/-- LENGTH of a frame (R402). -/
def Frame.len (f : Frame) : Nat := (f.hdr.extractLsb' 96 32).toNat
/-- ASID of a frame (R402). -/
def Frame.asid (f : Frame) : Nat := (f.hdr.extractLsb' 80 16).toNat
/-- CODE of a frame (R402). -/
def Frame.code (f : Frame) : Nat := (f.hdr.extractLsb' 72 8).toNat
/-- TAG of a frame (R402). -/
def Frame.tag (f : Frame) : Nat := (f.hdr.extractLsb' 0 64).toNat

/-- The reserved field is zero, and the payload does not go beyond its area (R402). -/
def Frame.ok (f : Frame) : Bool := f.hdr.extractLsb' 64 8 == 0 && f.len ≤ 65536

/-- A transfer out names no more bytes than its area has (R403). -/
def transferFits (i : Instr) : Bool :=
  match i with
  | .xferOut _ _ n => n ≤ 65536
  | _ => true

/-- The command of a frame: that of its code, of the context its header names, with its payload from BAR2 (R401, R402); none where the
frame fails its checks, or its operands are those of no command of that code (log 12). -/
def Frame.command (f : Frame) (area : List Byte) : Option Instr :=
  if !f.ok then none
  else
    match (match bareCommand f.code with
      | some i => some i
      | none => f.cmd.filter fun i => commandCode i == some f.code && transferFits i) with
    | some i => some (withPayload (area.take f.len) (withAsid f.asid i))
    | none => none

/-- A request slot never written holds zeros. -/
def Frame.empty : Frame := ⟨0, none⟩

/-- A payload area of BAR2 (R401). -/
def State.area (s : State) (slot : Nat) : List Byte := s.mem.readN (bar2Key (0x10000 * slot)) 65536

/-- The header of a response: the payload its area holds, the context and the TAG of its request, and its result code (R402). -/
def Response.hdr (r : Response) : BitVec 128 :=
  frameHeader (min r.bytes.length 65536) (r.tag / 2 ^ 69) r.code (r.tag % 2 ^ 64)

/-- The context of a command on pages. -/
def PageCmd.asid (c : PageCmd) : Nat :=
  match c with
  | .map a .. | .unmap a .. | .protect a .. | .migrate a .. | .sethash a .. | .evict a .. | .promote a .. | .query a _
  | .xlate a .. | .giveBack a .. | .xferIn a .. | .xferOut a .. => a

/-- The MP is busy with a command of the context that holds those after it: a transfer, or a PG_MAP that waits for a
frame (R94, R111). -/
def State.mpBusy (s : State) (asid : Nat) : Bool :=
  s.mp.xfers.any (fun x => x.cmd.asid == asid)
    || s.mp.waiting.any fun w => w.stage == .frames && w.cmd.asid == asid

/-- The step is a transfer into device memory (R111, R403). -/
def isTransferIn (i : Instr) : Bool :=
  match i with
  | .xferIn .. => true
  | _ => false

/-- A transfer into device memory that the MP has accepted is not over (R111). -/
def State.transfersIn (s : State) : Bool :=
  let into (c : PageCmd) : Bool := match c with
    | .xferIn .. => true
    | _ => false
  s.mp.xfers.any (fun x => into x.cmd) || s.mp.waiting.any fun w => into w.cmd

/-- A command taken must wait while those put off before it do: for its context's turn (R94), and a Q_ENQ for every transfer into
device memory before it (R111). -/
def State.heldBack (s : State) (before : List (Nat × Instr)) (i : Instr) : Bool :=
  (match cmdAsid i with
    | some a => s.mpBusy a || before.any fun x => cmdAsid x.2 == some a
    | none => false)
  || match i with
    | .qEnq .. => s.transfersIn || before.any fun x => isTransferIn x.2
    | _ => false

/-- A command waits for its turn. -/
def State.mustWait (s : State) (i : Instr) : Bool := s.heldBack s.mp.later i

/-- The MP takes the request in the next slot: an answered frame, or the command and the state in which it is performed
(R400 to R402). -/
def State.takeRequest (s : State) : Option (Sum Out (Instr × State)) :=
  if ringGap s.pk.reqProd s.pk.reqCons = 0 || (s.pk.phase != .ready && s.pk.phase != .recovery) then none
  else
    let slot := s.pk.reqCons % 32
    let f := dgetD s.pk.reqSlots slot Frame.empty
    let s1 : State := { s with
      pk := { s.pk with reqCons := (s.pk.reqCons + 1) % 2 ^ 32 }, tag := (slot + 32 * f.asid) * 2 ^ 64 + f.tag }
    match f.command (s.area slot) with
    | none => some (.inl (s1.answer codeBadFrame))
    | some cmd =>
      if s1.mustWait cmd then some (.inl (.next { s1 with mp := { s1.mp with later := s1.mp.later ++ [(s1.tag, cmd)] } }))
      else some (.inr (cmd, s1))

/-- The MP goes on to the first command it put off whose turn has come (R94, R111). -/
def State.takeLater (s : State) : Option (Instr × State) :=
  match (s.mp.later.zipIdx).find? fun x => !s.heldBack (s.mp.later.take x.2) x.1.2 with
  | some ((tag, cmd), _) =>
    some (cmd, { s with tag := tag, mp := { s.mp with later := s.mp.later.erase (tag, cmd) } })
  | none => none

/-! ### Host writes (R400) -/

/-- RSP_CONS_WRITE: the host has consumed responses, and held ones are posted (R400). -/
def execRspConsWrite (value : Word) (s : State) : Out :=
  let s1 : State := { s with pk := { s.pk with rspCons := value.toNat } }
  .next (s1.postHeld s1.pk.held.length)

/-- The host writes one word of a request slot: a word of the header (R402), or one of the operands, which then make no command that
the model knows (log 12). -/
def Frame.setWord (f : Frame) (k : Nat) (value : Word) : Frame :=
  if k < 4 then { f with hdr := f.hdr &&& ~~~((0xFFFFFFFF#128) <<< (32 * k)) ||| (value.setWidth 128 <<< (32 * k)) }
  else { f with cmd := none }

/-- REGISTER_WRITE: a host write of a word of BAR0. REQ_PROD is written; Status, REQ_CONS and RSP_PROD are not, nor any
other offset but those of the request ring; RSP_CONS is written as by RSP_CONS_WRITE. A word written into a request slot changes
its frame; one written into BAR2 goes to its area (R400, R401). Offsets from 0x2_0000 on are those of BAR2. -/
def execRegisterWrite (offset : Nat) (value : Word) (s : State) : Out :=
  if offset = 0x08 then .next { s with pk := { s.pk with reqProd := value.toNat } }
  else if offset = 0x20 then execRspConsWrite value s
  else if 0x8000 ≤ offset && offset < 0x10000 then
    let slot := (offset - 0x8000) / 1024
    .next { s with pk := { s.pk with
      reqSlots := dset s.pk.reqSlots slot ((dgetD s.pk.reqSlots slot Frame.empty).setWord (offset % 1024 / 4) value) } }
  else if offset < 0x20000 then .next s
  else if offset < 0x220000 then
    .next { s with mem := s.mem.writeN (bar2Key (offset - 0x20000)) (leBytes 4 value.toNat) }
  else .fault .noSuchRegister

/-- The host writes a frame into a request slot, with the payload of its command in the slot's area (R400, R401). -/
def State.writeFrame (s : State) (slot : Nat) (hdr : BitVec 128) (cmd : Instr) : State :=
  { s with
    mem := s.mem.writeN (bar2Key (0x10000 * (slot % 32))) ((payloadOf cmd).take 65536)
    pk := { s.pk with reqSlots := dset s.pk.reqSlots (slot % 32) ⟨hdr, some cmd⟩ } }

/-- The host places a command in request slot REQ_PROD mod 32 and advances REQ_PROD; in a full ring it overwrites a request not yet
taken (R400). -/
def State.placeRequest (s : State) (tag : Nat) (cmd : Instr) : State :=
  let s1 := s.writeFrame s.pk.reqProd (frameHeader (payloadOf cmd).length ((cmdAsid cmd).getD 0) ((commandCode cmd).getD 0) tag) cmd
  { s1 with pk := { s1.pk with reqProd := (s.pk.reqProd + 1) % 2 ^ 32 } }

/-- What the host reads in a word of BAR0 (R400, R402). Operands of a request and data words of a response have no layout: their words
are free (log 12). -/
def State.bar0Word (s : State) (offset : Nat) : Word :=
  let slot := offset % 0x8000 / 1024
  let k := offset % 1024 / 4
  let head (h : BitVec 128) : Word := h.extractLsb' (32 * k) 32
  if offset = 0x00 then (if s.pk.phase = .ready then 1 else if s.pk.phase = .recovery then 2 else 0)
  else if offset = 0x08 then BitVec.ofNat 32 s.pk.reqProd
  else if offset = 0x10 then BitVec.ofNat 32 s.pk.reqCons
  else if offset = 0x18 then BitVec.ofNat 32 s.pk.rspProd
  else if offset = 0x20 then BitVec.ofNat 32 s.pk.rspCons
  else if 0x8000 ≤ offset ∧ offset < 0x10000 then
    match dget s.pk.reqSlots slot with
    | some f => if k < 4 then head f.hdr else Config.frameWord (slot + 32 * s.pk.reqProd) k
    | none => 0
  else if 0x10000 ≤ offset ∧ offset < 0x18000 then
    match dget s.pk.rspSlots slot with
    | some r => if k < 4 then head r.hdr else Config.frameWord (slot + 32 * s.pk.rspProd) k
    | none => 0
  else 0

end Sys2Proof.Machine
end

