-- ==== Sys2Proof/Machine/Records.lean ====
section
/-!
DEFINITION. Launch records, kernels and completion counters as instructions and events meet them (06_queues.md R104 to
R112; 07_kernels.md R116, R121, R122, R128 to R131).
-/
namespace Sys2Proof.Machine

/-! ### Launch records (R106, R107) -/

/-- A field of a launch record (R106). -/
def rfield (r : BitVec 1024) (hi lo : Nat) : Nat := (r.extractLsb' lo (hi - lo + 1)).toNat

/-- The segment of a record: the XOR of the bytes of AFFKEY (R104). -/
def sliceOf (r : BitVec 1024) : Nat := (List.range 8).foldl (fun x i => x ^^^ rfield r (464 + 8 * i + 7) (464 + 8 * i)) 0

/-- Groups of a role, and its granules (R106). -/
def roleGroups (r : BitVec 1024) (k : Nat) : Nat := rfield r (392 + 10 * k + 5) (392 + 10 * k)
/-- Granules of a role (R106). -/
def roleGranules (r : BitVec 1024) (k : Nat) : Nat := rfield r (392 + 10 * k + 9) (392 + 10 * k + 6) + 1

/-- The record is well formed (R107); DEPTH, which the device writes for LAUNCH, is checked apart. -/
def recordOk (r : BitVec 1024) : Bool :=
  let f := rfield r
  let nrole := f 367 366
  let roles := List.range 4
  f 1023 672 == 0 && f 607 596 == 0 && f 463 460 == 0 && f 455 453 == 0 && f 391 389 == 0 && f 375 373 == 0
    && canonical (f 63 0) && f 63 0 % 4 == 0 && canonical (f 127 64) && canonical (f 191 128) && canonical (f 591 528)
    && f 191 128 % 8 == 0 && (f 595 592 != 0 || f 591 528 == 0)
    && (f 287 256 + 1) * (f 319 288 + 1) * (f 351 320 + 1) ≤ 2 ^ 32
    && f 359 352 != 0
    && roles.foldl (fun n k => if k ≤ nrole then n + roleGroups r k else n) 0 == f 364 360 + 1
    && roles.all (fun k => if k ≤ nrole then roleGroups r k != 0 else rfield r (392 + 10 * k + 9) (392 + 10 * k) == 0)
    && f 372 368 ≤ 16 && f 384 376 ≤ 384 && f 388 385 ≤ 8 && f 595 592 ≤ 8
    && (if f 365 365 == 1 then 1 ≤ f 452 432 && f 452 432 ≤ 1048576 else f 452 432 == 0)
    && roles.foldl (fun n k => if k ≤ nrole then n + roleGroups r k * (1024 * roleGranules r k + 512) else n) 0 ≤ 262144

/-- DEPTH is 0, as a record given to ENQ or the host must have it (R107). -/
def recordTop (r : BitVec 1024) : Bool := rfield r 459 456 == 0

/-- Write DEPTH into a record (R128). -/
def withDepth (r : BitVec 1024) (d : Nat) : BitVec 1024 :=
  r.extractLsb' 460 564 ++ BitVec.ofNat 4 d ++ r.extractLsb' 0 456

/-- A kernel as an accepted record makes it (R116). -/
def Kernel.enqueued (asid : Nat) (r : BitVec 1024) (depth : Nat) (src : Source) : Kernel :=
  { asid := asid, rcd := r, depth := depth, st := .enqueued, src := src, edges := none, dist := none, ptr := 0, next := 0,
    code := [], codeHave := [], codeFail := [], edgeHave := [], edgeFail := [], edgeRound := 0,
    stepped := false, stepSrc := none, arenaCounted := false, trapped := false }

/-- Make a kernel; its number is the state's next. -/
def State.newKernel (s : State) (k : Kernel) : State := { s.bump with kernels := dset s.kernels s.nextId k }

/-! ### Completion counters (R121, R122) -/

/-- The distributor named as SOURCE of a kernel's counter step (R122). -/
def State.stepSource (s : State) (k : Kernel) : Nat :=
  match k.dist, k.src with
  | some d, _ => 512 + d
  | none, .segment _ _ slice => 512 + slice / 32
  | none, .pending t => 512 + ((dget s.teams t).map fun t => clusterOf t.core).getD 0

/-- A fault record of the device itself: MASK 0 (R384). -/
def State.unitRecord (s : State) (source asid cause acc va : Nat) : FaultRecord :=
  ⟨source, 2 ^ 32 - 1, false, cause, acc, s.classAt asid va, asid, 0, s.pk.gts, va⟩

/-- Ask the MP to bring in a page that the device itself found absent (R119, R121). -/
def State.deviceFault (s : State) (f : FaultRecord) : State :=
  { s with mp := { s.mp with faults := s.mp.faults ++ [(s.pageOf f.asid f.va, f)] } }

/-- The step of a kernel's completion counter: −1 for a COMPLETE kernel, (old − 1) | 2^63 for a FAULTED or CANCELLED
one; an atomic at the cluster cache of its distributor (R208, log 12); resolved first where its page is not present, held where
its page is on the move (R256, R263), logged where it takes a fatal cause (R121, R122). SOURCE is that of the first attempt. -/
def State.stepCounter (s : State) (kid : Nat) : State :=
  match dget s.kernels kid with
  | none => s
  | some k =>
    let va := k.field 191 128
    if k.stepped || va = 0 then s
    else
      let failed := k.st == .faulted || k.st == .cancelled
      let src := k.stepSrc.getD (s.stepSource k)
      let tried (s : State) : State := s.modKernel kid fun k => { k with stepSrc := some src }
      let ended (s : State) : State := s.modKernel kid fun k => { k with stepped := true }
      let c := s.causeAt k.asid .token va .atomic
      match s.pageAt k.asid va with
      | none => ended (s.logFault k.asid (s.unitRecord src k.asid causeNotMapped 8 va))
      | some (a, b, p) =>
        let at' : List (Nat × Nat) := [(2 ^ 128 + a * 2 ^ 64 + va, 8)]
        if c == causeNotPresent then
          if p.waiters.contains (.counter kid) then s
          else
            ((tried s).modPage a b fun p => { p with waiters := p.waiters ++ [.counter kid] }).deviceFault
              (s.unitRecord src k.asid c 8 va)
        else if c != 0 then ended (s.logFault k.asid (s.unitRecord src k.asid c 8 va))
        else if s.holds p true va 8 then (tried s).holdAt a b (.counter kid)
        else if p.st == .remote then
          match s.sendTo p (va - b) (.atomic (if failed then 11 else 0)) (leBytes 8 (2 ^ 64 - 1)) (.counter kid) with
          | some (s', _) => ended (tried s')
          | none => ended (s.logFault k.asid (s.unitRecord src k.asid causeRemoteTimeout 8 va))
        else
          let s1 := s.forcePassed at'
          let old := leNat (s1.vbytes k.asid va 8)
          let dec := (old + 2 ^ 64 - 1) % 2 ^ 64
          let s2 := s1.deviceTouch (if 512 ≤ src then src - 512 else clusterOf src) k.asid va a b p true
          ended (s2.vwrite k.asid va (leBytes 8 (if failed then dec ||| 2 ^ 63 else dec)))

/-- A kernel leaves where its record is held. -/
def State.dropRecord (s : State) (kid : Nat) : State :=
  match dget s.kernels kid with
  | none => s
  | some k =>
    match k.src with
    | .segment asid qid slice =>
      s.modCtx asid fun c => { c with queues := dmod c.queues qid fun q =>
        { q with segs := dset q.segs slice ((dgetD q.segs slice []).filter (· != kid)) } }
    | .pending t => s.modTeam t fun t => { t with pend := t.pend.filter (· != kid) }

/-- Every team of a kernel has retired, and every write of its teams is performed (R116, R121, R122). -/
def State.kernelOver (s : State) (kid : Nat) : Bool :=
  s.teams.all fun e => e.2.kernel != kid || (e.2.st == .retired && (s.opsOf e.1).isEmpty)

/-- The counter of a kernel is still to be stepped, and no wait for its page is under way (R122). -/
def State.stepDue (s : State) (kid : Nat) (k : Kernel) : Bool :=
  let va := k.field 191 128
  !k.stepped && va != 0 && !(((s.pageAt k.asid va).map fun e =>
    e.2.2.waiters.contains (.counter kid) || e.2.2.hold.contains (.counter kid)).getD false)

/-- A kernel becomes CANCELLED (R116): its record leaves, and its counter is stepped, once its teams have stopped and their writes are
performed: that step is a release (R122). -/
def State.cancelKernel (s : State) (kid : Nat) : State :=
  let s1 := (s.dropRecord kid).modKernel kid fun k => { k with st := .cancelled, stepSrc := some (s.stepSource k) }
  if s1.kernelOver kid then s1.stepCounter kid else s1

/-! ### Enqueue (R110 to R112) -/

/-- The checks of R110 but for room. -/
def State.enqueueCheck (s : State) (asid qid : Nat) (r : BitVec 1024) : Nat :=
  match (dget s.ctxs asid).bind fun c => dget c.queues qid with
  | none => codeNoQueue
  | some q =>
    if q.st == .draining then codeBadState
    else if !(recordOk r && recordTop r) then codeBadLaunch
    else codeOk

/-- Records a queue's segment holds. -/
def Queue.held (q : Queue) (slice : Nat) : List Nat := dgetD q.segs slice []

/-- An enqueue is performed as one step at the slice (R110): its status and the state. -/
def State.enqueue (s : State) (asid qid : Nat) (r : BitVec 1024) : Nat × State :=
  let st := s.enqueueCheck asid qid r
  if st != codeOk then (st, s)
  else
    match (dget s.ctxs asid).bind fun c => dget c.queues qid with
    | none => (codeNoQueue, s)
    | some q =>
      let sl := sliceOf r
      if 2 ^ q.c ≤ (q.held sl).length then (codeQueueFull, s)
      else
        let kid := s.nextId
        let s1 := s.newKernel (Kernel.enqueued asid r 0 (.segment asid qid sl))
        (codeOk, s1.modCtx asid fun c => { c with queues := dmod c.queues qid fun q =>
          { q with segs := dset q.segs sl (q.held sl ++ [kid]) } })

/-! ### Windows -/

/-- Bytes of a team's window, in its core's scratchpad or copied out (R158). -/
def State.windowBytes (s : State) (t : Team) (off n : Nat) : List Byte :=
  if t.windowIn then s.mem.readN (scratchKey t.core (t.wbase + off)) n else t.windowSaved.readN off n

/-- A launch record of a team's window. -/
def State.windowRecord (s : State) (t : Team) (off : Nat) : BitVec 1024 :=
  BitVec.ofNat 1024 (leNat (s.windowBytes t off 128))

/-- The cause of a window operand of n bytes at a multiple of 16, or 0 (R223, R224). -/
def Team.recordCause (t : Team) (off n : Nat) : Nat :=
  if off % 16 != 0 then causeMisaligned else if off + n ≤ t.wsize then 0 else causeScratch

/-! ### LAUNCH and ENQ (R110 to R112, R128, R131, R223, R224) -/

/-- What one lane of a launch or an enq comes to. -/
inductive LaunchStep where
  /-- Its status, and whether a record was accepted. -/
  | settled (status : Nat) (s : State)
  /-- The queue is full, or the version budget is (R128, R362). -/
  | blocked (s : State)

/-- A record that a version takes in at its charge (R361), or that the version has no room for (R362). -/
def State.holdRecord (s : State) (tid : Nat) (t : Team) (h : HeldRec) : LaunchStep :=
  if t.ver.used + 128 ≤ s.budgetOf t then
    .settled codeOk (s.modTeam tid fun t =>
      { t with ver := { t.ver with recs := t.ver.recs ++ [h], used := t.ver.used + 128 } })
  else .blocked (s.askToken tid)

/-- One lane's record of a launch (R128, R131, R223); `raw` is the opcode of the launch as it stands in its word. While the queue is
full the next record is not looked at. -/
def State.launchOne (s : State) (tid : Nat) (t : Team) (depth inst raw lane : Nat) (off : Nat) : LaunchStep :=
  let r := withDepth (s.windowRecord t off) depth
  if !t.forming && !s.cancelling t.asid && 4 ≤ t.pend.length then .blocked s
  else if !recordOk r then .settled codeBadLaunch s
  else if s.cancelling t.asid then
    let kid := s.nextId
    .settled codeOk ((s.newKernel (Kernel.enqueued t.asid r depth (.pending tid))).cancelKernel kid)
  else if t.forming then s.holdRecord tid t ⟨inst, none, lane, r, raw⟩
  else
    let kid := s.nextId
    .settled codeOk ((s.newKernel (Kernel.enqueued t.asid r depth (.pending tid))).modTeam tid fun t =>
      { t with pend := t.pend ++ [kid] })

/-- One lane's record of an enq (R110, R112, R224). A lane whose reserved bits are not zero gets BAD_LAUNCH, wherever its record lies
(log 41). -/
def State.enqOne (s : State) (tid : Nat) (t : Team) (inst raw lane : Nat) (v : Word) : LaunchStep :=
  let qid := (v.extractLsb' 21 6).toNat
  let rcd := s.windowRecord t (v.extractLsb' 0 21).toNat
  if v.extractLsb' 27 5 != 0 then .settled codeBadLaunch s
  else if t.forming then
    let st := s.enqueueCheck t.asid qid rcd
    if st = codeOk then s.holdRecord tid t ⟨inst, some qid, lane, rcd, raw⟩ else .settled st s
  else
    let x := s.enqueue t.asid qid rcd
    .settled x.1 x.2

/-- The operand of each lane of a launch or an enq, as it stands at issue (R35). -/
def Run.sources (r : Run) (a : Nat) : List Word := (List.range 32).map fun l => r.g.vreg a l

/-- Lanes of a launch or an enq in ascending order from a list, until one blocks: the group's statuses, the lanes accepted,
the lanes left. -/
def State.recordLanes (enq : Bool) (s : State) (tid depth inst raw d : Nat) (src : List Word) (g : Group) (acc : List Nat) :
    List Nat → State × Group × List Nat × List Nat
  | [] => (s, g, acc, [])
  | l :: ls =>
    match dget s.teams tid with
    | none => (s, g, acc, l :: ls)
    | some t =>
      let v := src.getD l 0
      match (if enq then s.enqOne tid t inst raw l v else s.launchOne tid t depth inst raw l v.toNat) with
      | .blocked s1 => (s1, g, acc, l :: ls)
      | .settled st s1 =>
        State.recordLanes enq s1 tid depth inst raw d src (g.setV d l (BitVec.ofNat 32 st))
          (if st = codeOk then acc ++ [l] else acc) ls

/-- KTAG of a launch record. -/
def ktagOf (r : BitVec 1024) : Nat := rfield r 639 608

/-- Go on with the lanes of a launch or an enq of a number in issue order; while a lane blocks, the split waits in LAUNCH_WAIT (R128)
or is held for the token (R362). A LAUNCH record counts the lanes whose records were accepted (R223, R387). -/
def Run.recordGo (r : Run) (enq : Bool) (s : State) (inst d : Nat) (src : List Word) (lanes : List Nat) : State :=
  let depth := ((dget s.kernels r.t.kernel).map Kernel.depth).getD 0 + 1
  let (s1, g1, acc, rest) := s.recordLanes enq r.tid depth inst (opcodeOf r.word) d src r.g [] lanes
  let tag := match acc with
    | l :: _ =>
      let v := (src.getD l 0).toNat
      ktagOf (s.windowRecord r.t (if enq then v % 2 ^ 21 else v))
    | [] => 0
  let s2 := if acc.isEmpty then s1 else s1.traceG r.g 6 (if enq then 1 else 0) (tag * 2 ^ 32 + acc.length)
  let sp := g1.split r.slot
  let st : SplitSt :=
    if rest.isEmpty then .ready
    else if r.t.forming then .blocked (.held inst enq d src (maskOf rest))
    else .blocked (.launch d src (maskOf rest))
  (s2.setGroup r.gid (g1.setSplit r.slot { sp with st := st })).settle r.gid

/-- The splits of a group that wait with launch or enq records, with the number of the instruction where it is held for the token:
number, group, slot. -/
def Group.recordWaits (gid : Nat) (g : Group) : List (Nat × Nat × Nat) :=
  (g.splits.zipIdx).filterMap fun x =>
    match x.1.st with
    | .blocked (.launch ..) => some (0, gid, x.2)
    | .blocked (.held n ..) => some (n, gid, x.2)
    | _ => none

/-- Splits of a team in LAUNCH_WAIT, or held for the token, go on, when an entry has left the queue or the token has come, those held
in issue order (R105, R128, R131, R364). -/
def State.resumeLaunch (s : State) (tid : Nat) : State :=
  (sortOn Prod.fst ((s.groupsOf tid).flatMap fun e => e.2.recordWaits e.1)).foldl (fun s w =>
    match s.splitRun w.2.1 w.2.2 with
    | some r =>
      match r.sp.st with
      | .blocked (.launch d a m) => r.recordGo false s.bump s.nextId d a (lanesOf m)
      | .blocked (.held n enq d a m) => if r.t.forming then s else r.recordGo enq s n d a (lanesOf m)
      | _ => s
    | none => s) s

/-- Entries of a team's pending-launch queue are cancelled as they enter: its context or its kernel has been cancelled (R98, R100,
R132). -/
def State.launchesCancelled (s : State) (t : Team) : Bool :=
  s.cancelling t.asid || ((dget s.kernels t.kernel).map fun k => k.st == .cancelled).getD false

/-- The launch records of a committed version that still wait for room are CANCELLED, and their counters stepped (R98, R123, R132,
log 31). -/
def State.cancelLate (s : State) (tid : Nat) : State :=
  match dget s.teams tid with
  | none => s
  | some t =>
    t.pendLate.foldl (fun s r =>
      (s.newKernel (Kernel.enqueued t.asid r (rfield r 459 456) (.pending tid))).cancelKernel s.nextId)
      (s.modTeam tid fun t => { t with pendLate := [] })

/-- Late launch records of a committed version enter the queue as room comes (R131). -/
def State.enterLate (s : State) (tid : Nat) : State :=
  match dget s.teams tid with
  | none => s
  | some t =>
    if s.launchesCancelled t then s.cancelLate tid else
    let n := 4 - t.pend.length
    (t.pendLate.take n).foldl (fun s r =>
      let kid := s.nextId
      (s.newKernel (Kernel.enqueued t.asid r (rfield r 459 456) (.pending tid))).modTeam tid fun t =>
        { t with pend := t.pend ++ [kid] }) (s.modTeam tid fun t => { t with pendLate := t.pendLate.drop n })

/-- A kernel whose last team has retired enters DRAINING, once no pending entry of its teams remains; a CANCELLED one has its counter
stepped then (R116, R122). -/
def State.settleKernel (s : State) (kid : Nat) : State :=
  match dget s.kernels kid with
  | some k =>
    let mine := s.teams.filter fun e => e.2.kernel == kid
    if k.st == .running && !k.trapped && mine.all fun e => e.2.st == .retired && e.2.pend.isEmpty then
      s.modKernel kid fun k => { k with st := .draining }
    else if k.st == .cancelled && s.kernelOver kid then s.stepCounter kid
    else s
  | none => s

/-- A retired team is gone once its pending entries have left and its non-temporal stores are over (R116, R126). -/
def State.forgetTeam (s : State) (tid : Nat) : State :=
  match dget s.teams tid with
  | some t =>
    if t.st == .retired then
      (if t.pend.isEmpty && (s.opsOf tid).isEmpty then { s with teams := ddel s.teams tid } else s).settleKernel t.kernel
    else s
  | none => s

/-- The retired teams of a kernel that has ended are gone, but for those that still hold entries (R126, R129). -/
def State.forgetTeams (s : State) (kid : Nat) : State :=
  { s with teams := s.teams.filter fun e => e.2.kernel != kid || e.2.st != .retired || !e.2.pend.isEmpty }

/-- After an entry has left the pending-launch queue of a team: held records and waiting lanes take its place; a team
that is away goes on at its resumption (R128, R160). -/
def State.entryLeft (s : State) (tid : Nat) : State :=
  let s1 := s.enterLate tid
  match dget s1.teams tid with
  | some t => (if t.st == .running then s1.resumeLaunch tid else s1).forgetTeam tid
  | none => s1

end Sys2Proof.Machine
end

