-- ==== Sys2Proof/Machine/Barriers.lean ====
section
/-!
DEFINITION. The barrier instructions (13_barriers.md R274 to R289). A step at an entry, its completion and what follows
from it stand in Ops.lean.
-/
namespace Sys2Proof.Machine

/-- Threads of a team (R28). -/
def State.ntidOf (s : State) (t : Team) : Nat :=
  ((dget s.kernels t.kernel).map fun k => 32 * (k.field 364 360 + 1)).getD 0

/-- A register at or above NBAR raises NOT_RESERVED; an UNARMED one UNARMED where `armed` asks for it (R274, R283). -/
def Run.withBarrier (r : Run) (s : State) (k : Nat) (armed : Bool) (f : Barrier → Out) : Out :=
  let b := r.t.barrier k
  if s.nbarOf r.t ≤ k then r.trap s trapBarrierMisuse (misuse k 2)
  else if armed && !b.armed then r.trap s trapBarrierMisuse (misuse k 1)
  else f b

/-- A credit that names the register is in flight, that of a stream's next tile whose slot is empty among them (R281, R285, R308). -/
def State.creditFlying (s : State) (tid k : Nat) : Bool :=
  s.cores.any (fun e => (e.2.porter.any fun p => p.team == tid && p.bk == some k)
    || e.2.streams.any fun x => x.2.team == tid && ((dget s.teams tid).bind x.2.owed) == some k)
  || (s.groupsOf tid).any (fun e =>
    e.2.batches.any (fun b => b.credits.any fun c => c.1 == k)
      || (e.2.batchOpen.map fun b => b.credits.any fun c => c.1 == k).getD false)
  || s.looms.any fun e => e.2.queue.any fun q => q.team == tid &&
    match q.work with
    | .drain _ _ _ _ _ _ bk => bk == some k
    | _ => false

/-- A split of the team waits on the register. -/
def State.barrierAwaited (s : State) (tid k : Nat) : Bool :=
  (s.groupsOf tid).any fun e => e.2.splits.any fun sp =>
    match sp.st with
    | .blocked (.bwaitp k' _) => k' == k
    | _ => false

/-- idle(entry) of R285. -/
def State.barrierIdle (s : State) (tid k : Nat) (b : Barrier) : Bool :=
  b.tarr == 0 && b.bcred == 0 && !s.barrierAwaited tid k && !s.creditFlying tid k

/-- An instruction reads an entry: it is the one last touched (R281). -/
def State.touchBarrier (s : State) (tid k : Nat) : State :=
  (s.modTeam tid fun t => { t with barriers := dset t.barriers k { t.barrier k with touched := s.nextId } }).bump

/-- binit (R285). -/
def execBinit (k : BitVec 4) (t b p : SReg) (s : State) : Out :=
  onRun s fun r =>
    r.withBarrier s k.toNat false fun x =>
      let ntid := s.ntidOf r.t
      let t0 := (r.sx t).toNat % 2 ^ 11
      let n := if t0 = 0 then ntid else t0
      let bytes := (r.sx b).toNat
      let ph := (r.sx p).toNat % 2 ^ 32
      let arm : Out := .next (s.modTeam r.tid fun t =>
        { t with barriers := dset t.barriers k.toNat ⟨true, n, n, bytes, 0, 0, ph, ph, [], [], 0, x.spilled, s.nextId⟩ }).bump
      if ntid < n || 2 ^ 40 < bytes then r.trap s trapBarrierMisuse (misuse k.toNat 7)
      else if !x.armed then arm
      else if n == x.tinit && bytes == x.bexp && ph == x.pinit then .next (s.touchBarrier r.tid k.toNat)
      else if s.barrierIdle r.tid k.toNat x then arm
      else r.trap s trapBarrierMisuse (misuse k.toNat 6)

/-- Arrive the active threads (R286): the entry before the settling of its phase, or the sub-code of a misuse. -/
def Run.arrive (r : Run) (b : Barrier) (drop : Bool) : Barrier ⊕ Nat :=
  let ths := (lanesOf r.act).map fun l => r.g.tid.getD l 0
  let n := ths.length
  if ths.any fun t => b.arrived.contains t || b.dropped.contains t then .inr 3
  else if b.texp < b.tarr + n then .inr 4
  else if drop then .inl { b with tarr := b.tarr + n, dropped := b.dropped ++ ths, dropNow := b.dropNow + n }
  else .inl { b with tarr := b.tarr + n, arrived := b.arrived ++ ths }

/-- barv (R286): a release of the group's earlier accesses first; the phase is returned at the counter, if one is
named. -/
def execBarv (k : BitVec 4) (d : SReg) (dc : DcField) (s : State) : Out :=
  onRun s fun r =>
    r.withBarrier s k.toNat true fun b =>
      match r.arrive b false with
      | .inr sub => r.trap s trapBarrierMisuse (misuse k.toNat sub)
      | .inl b1 =>
        if r.full (dcOf dc) || !(s.releasable r.gid).all s.leavable then r.stall s
        else
          let s1 := match dcOf dc with
            | some c => r.issueOp s r.g .short (some c) [] .none [] [(d.toNat, BitVec.ofNat 64 b.phase)]
            | none => s
          .next ((s1.leave (s.releasable r.gid) 1).stepBarrier r.tid k.toNat b1)

/-- barb (R287): a credit above BEXP is precise here (R279). -/
def execBarb (k : BitVec 4) (a : SReg) (s : State) : Out :=
  onRun s fun r =>
    r.withBarrier s k.toNat true fun b =>
      let c := (r.sx a).toNat
      if b.bexp < b.bcred + c || 2 ^ 40 < c then r.trap s trapBarrierMisuse (misuse k.toNat 5)
      else .next (s.stepBarrier r.tid k.toNat { b with bcred := b.bcred + c })

/-- bwaitp (R288). -/
def execBwaitp (k : BitVec 4) (p : SReg) (s : State) : Out :=
  onRun s fun r =>
    r.withBarrier s k.toNat true fun b =>
      let q := (r.sx p).toNat % 2 ^ 32
      let s1 := s.touchBarrier r.tid k.toNat
      if phaseDone b.phase q then .next s1 else r.block s1 r.g (.bwaitp k.toNat (BitVec.ofNat 64 q))

/-- btest (R289). -/
def execBtest (k : BitVec 4) (d p : SReg) (sel : Bit) (dc : DcField) (s : State) : Out :=
  onRun s fun r =>
    r.withBarrier s k.toNat false fun b =>
      let q := (r.sx p).toNat % 2 ^ 32
      let ph := b.phase * 2 ^ 32 + (if phaseDone b.phase q then 2 ^ 31 else 0) + (if b.armed then 2 ^ 11 else 0) + b.tarr
      r.later (if r.full (dcOf dc) then s else s.touchBarrier r.tid k.toNat) .short dc []
        [(d.toNat, BitVec.ofNat 64 (if sel.toNat == 1 then b.bcred else ph))]

/-- bdrop (R286). -/
def execBdrop (k : BitVec 4) (s : State) : Out :=
  onRun s fun r =>
    r.withBarrier s k.toNat true fun b =>
      match r.arrive b true with
      | .inr sub => r.trap s trapBarrierMisuse (misuse k.toNat sub)
      | .inl b1 => .next (s.stepBarrier r.tid k.toNat b1)

end Sys2Proof.Machine
end

