-- ==== Sys2Proof/Machine/Control.lean ====
section
/-!
DEFINITION. Class 6 but for barriers, chandler and hoops, and class 7: ordering, waiting, branches, ends, launches and the
system instructions (10_memory_control_instructions.md R212 to R226).
-/
namespace Sys2Proof.Machine

/-! ### Ordering and waiting -/

/-- The operations a fence covers: every access of the group issued before it, from every split, but the non-temporal stores and
the porter's (R212). -/
def State.fenceOps (s : State) (gid : Nat) : List Nat :=
  s.flight.filterMap fun e =>
    match e.2.work with
    | .mem m => if e.2.group == gid && m.kind != .storeNt && !m.kind.isPorter then some e.1 else none
    | _ => none

/-- The acquires of both sides that have been passed in an instance of a scope: a fence of both sides comes after them (R236, log 50). -/
def State.passedBoth (s : State) (gid scope : Nat) : List Nat :=
  s.flight.filterMap fun e =>
    match e.2.work with
    | .mem m =>
      if e.2.passed.isSome && m.both && m.scope == scope && !m.isOver && s.sameScope scope e.2.group gid then some e.1 else none
    | _ => none

/-- What a fence comes after: the accesses it covers; with a release side those left behind in its instances; and with both sides the
passed acquires of its instance (R212, R235, R236). -/
def State.fenceAll (s : State) (gid ord scope : Nat) : List Nat :=
  (s.fenceOps gid ++ (if ord.testBit 1 then s.markedIn gid scope else []) ++ (if ord == 3 then s.passedBoth gid scope else [])).eraseDups

/-- A fence of a scope narrower than the device may go on before the accesses it covers: they may be left behind, it passes no acquire
of the order of R236, and one with an acquire side comes after every atomic (R232, R233). -/
def State.fenceGoes (s : State) (gid ord scope : Nat) : Bool :=
  scope < 4 && (ord != 3 || (s.passedBoth gid scope).isEmpty) && (s.fenceOps gid).all fun w =>
    s.leavable w && (ord == 2 || s.performed w ||
      match (dget s.flight w).map Op.work with
      | some (.mem m) => !m.isAtomic
      | _ => true)

/-- fence (R212): it holds its split until the accesses it covers are performed; one of a scope narrower than the device may go on
before those that nothing in its instance can see late (R232, log 50), and whether it does is a free value. -/
def execFence (ord : BitVec 2) (scope : BitVec 3) (s : State) : Out :=
  onRun s fun r =>
    match s.fenceAll r.gid ord.toNat scope.toNat with
    | [] => .next (s.acquireL1 r.t.core r.t.asid ord.toNat scope.toNat)
    | ops =>
      if s.fenceGoes r.gid ord.toNat scope.toNat then
        if Config.freeBool s.freeCtr then
          .next ((s.useFree.leave ops scope.toNat).acquireL1 r.t.core r.t.asid ord.toNat scope.toNat)
        else r.block s.useFree r.g (.fence ord.toNat scope.toNat ops)
      else r.block s r.g (.fence ord.toNat scope.toNat ops)

/-- dwait (R213). -/
def execDwait (k : DcField) (n : BitVec 6) (s : State) : Out :=
  onRun s fun r =>
    if r.g.cnt k.toNat ≤ n.toNat then .next s else r.block s r.g (.dwait k.toNat n.toNat)

/-- A lane cause taken by every active lane of a split at its instruction; PAGE_NOT_PRESENT parks it (R143, R144, R214). -/
def Run.wholeCause (r : Run) (s : State) (cause va : Nat) : Out :=
  let lanes := lanesOf r.act
  let recs := s.records r.t.core r.t .read (lanes.map fun l => (l, va, cause))
  let s1 := (if cause ≤ 7 then s.toSieve r.t.core r.gid s.nextId recs else s).bump
  if cause == causeNotPresent then
    let sp := { r.sp with st := .parked, nxt := r.sp.pos, pages := s.absentPages r.t .load va, doom := [] }
    r.finish (s1.traceSplit r.g 2 r.act r.slot 0) (r.g.setSplit r.slot sp)
  else
    let cs := lanes.map fun l => (⟨l, cause, va, r.sp.hdr, r.sp.pos + 1, r.word, s.nextId⟩ : LaneCause)
    r.finish s1 ((r.g.addFaults (s.cyc1000 r.t.core) cs).setSplit r.slot r.sp.freed)

/-- The sieve has no room for the record of a cause, which holds the instruction until it has (R258). -/
def Run.sieveHolds (r : Run) (s : State) (cause : Nat) : Bool := cause == causeNotPresent && !s.sieveTakes r.t.core 1

/-- The number under which the read of a waitc stands in the queues of a home slice. -/
def waitcRef (gid slot : Nat) : Nat × Nat := (2 ^ 60 + gid, slot)

/-- Some earlier access of the split in group order, or one left behind in an instance of its group, may still write the counter, or
an acquire is outstanding (R198, R210, R235). -/
def Run.waitcBusy (r : Run) (s : State) (va : Nat) : Bool :=
  let here : List (Nat × Nat) := [(2 ^ 128 + s.spaceOf r.t.asid va * 2 ^ 64 + va, 8)]
  !(s.acquiring r.gid).isEmpty || (r.sp.past ++ s.markedIn r.gid 4).any fun w =>
    match dget s.flight w with
    | some o =>
      match o.work, dget s.teams o.team with
      | .mem m, some t => m.units.any fun u => u.waits && rangesMeet here (s.placesOf t m u)
      | _, _ => false
    | none => false

/-- The read of a waitc at its home slice: a touch in a declared region, then over the link for a page of a peer, else the
word; none while it must wait (R214, R197). -/
def Run.waitcRead (r : Run) (s : State) (va : Nat) : State × Option DWord :=
  let word (s : State) : DWord := BitVec.ofNat 64 (leNat (s.tbytes r.t va 8))
  match s.pageAt r.t.asid va with
  | none => (s, none)
  | some (_, b, p) =>
    if r.waitcBusy s va || (s.heldAt r.tid r.t .read va 8).isSome then (s, none)
    else
      match s.touchAll r.tid r.t (waitcRef r.gid r.slot) [va] with
      | .served s1 =>
        if p.st == .remote then
          (((s1.sendTo p (va - b) .read (leBytes 8 0) (.waitc r.gid r.slot)).map Prod.fst).getD s1, none)
        else (s1.touchAddrs r.tid r.t false ⟨true, false⟩ [va], some (word s1))
      | .held s1 => (s1, none)

/-- The cause of the read of a waitc, or 0 (R214). -/
def Run.waitcCause (r : Run) (s : State) (va : Nat) : Nat :=
  if va % 8 != 0 then causeMisaligned
  else if s.linkDown r.t.asid va
      && s.causeAt r.t.asid r.t.mode va .read == 0 then causeRemoteTimeout
  else
    let c := s.causeAt r.t.asid r.t.mode va .read
    if c == causeNotPresent then
      match (s.absentPages r.t .load va).filterMap fun p => (r.sp.doom.find? fun d => d.1 == p).map Prod.snd with
      | [] => c
      | d :: _ => d
    else c

/-- A waitc is over: its register receives the value that satisfied it, and the read is a device-scope acquire (R214, R215). -/
def Run.waitcOver (r : Run) (s : State) (d : Nat) (c : DWord) : Out :=
  r.finish (s.acquireL1 r.t.core r.t.asid 1 4) ((r.g.setS d c).setSplit r.slot { r.sp with st := .ready, doom := [] })

/-- A waitc reads its counter: it is satisfied, or its split is BLOCKED (R214, R215). -/
def Run.waitcTry (r : Run) (s : State) (d va : Nat) (thr : DWord) : Out :=
  let c := r.waitcCause s va
  if c != 0 then r.wholeCause s c va
  else
    let blocked := r.g.setSplit r.slot { r.sp with st := .blocked (.waitc d va thr none), doom := [] }
    match r.waitcRead s va with
    | (s1, some c) => if c.toInt ≤ thr.toInt then r.waitcOver s1 d c else r.finish s1 blocked
    | (s1, none) => r.finish s1 blocked

/-- The CNTVAs of the records a version holds (R131, R112). -/
def Version.counters (v : Version) : List Nat :=
  v.recs.map fun h => rfield h.rcd 191 128

/-- waitc (R214, R215). -/
def execWaitc (d a b : SReg) (s : State) : Out :=
  onRun s fun r =>
    let va := (r.sx a).toNat
    if r.t.versioned && r.t.ver.counters.contains va && va != 0 then r.trap s trapSelfWait 0
    else if r.sieveHolds s (r.waitcCause s va) then r.stall s
    else r.waitcTry s d.toNat va (r.sx b)

/-- What a read of its counter gives a split in WAITC now, without a touch and without a link, when it may be performed. -/
def Run.waitcSees (r : Run) (s : State) (va : Nat) : Option DWord :=
  if r.waitcCause s va == 0 && !r.waitcBusy s va then
    match s.pageAt r.t.asid va with
    | some (_, _, p) => if p.st == .remote || s.holds p false va 8 then none else some (BitVec.ofNat 64 (leNat (s.tbytes r.t va 8)))
    | none => none
  else none

/-- A split in WAITC with what it sees now: the value of the first write that satisfies it stays (R160, R214). -/
def State.seenWaitc (s : State) (gid slot : Nat) (sp : Split) : Split :=
  match sp.st with
  | .blocked (.waitc d va thr none) =>
    match (s.splitRun gid slot).bind fun r => r.waitcSees s va with
    | some c => if c.toInt ≤ thr.toInt then { sp with st := .blocked (.waitc d va thr (some c)) } else sp
    | none => sp
  | _ => sp

/-- Some split of the group waits in WAITC for a value. -/
def Group.waitsOn (g : Group) : Bool :=
  g.splits.any fun sp =>
    match sp.st with
    | .blocked (.waitc _ _ _ none) => true
    | _ => false

/-- After a step the home slices report the writes to counters that splits wait on: a wait is satisfied by the first that satisfies
it, whatever is written after (R160, R214). -/
def State.noteWaitc (s : State) : State :=
  if s.groups.any fun e => e.2.waitsOn then
    { s with groups := s.groups.map fun e =>
        if e.2.waitsOn then
          (e.1, { e.2 with splits := (e.2.splits.zipIdx).map fun x => s.seenWaitc e.1 x.2 x.1 })
        else e }
  else s

/-- WAITC_RECHECK: the home slice reports a write to a counter, and a split in WAITC reads it again (R160, R214). It is no
step while nothing has changed for the split. -/
def execWaitcRecheck (g slot : Nat) (s : State) : Out :=
  match s.splitRun g slot with
  | some r =>
    match r.sp.st with
    | .blocked (.waitc d va _ (some c)) =>
      if (s.regionAt r.t.asid va).isNone || r.waitcCause s va != 0 then r.waitcOver s d c
      else
        match r.waitcRead s va with
        | (s1, some _) => r.waitcOver s1 d c
        | (s1, none) => if s1 == s then .refused .notEnabled else .next s1
    | .blocked (.waitc d va thr none) =>
      let c := r.waitcCause s va
      if c != 0 then (if r.sieveHolds s c then .refused .notEnabled else r.waitcTry s d va thr)
      else
        match r.waitcRead s va with
        | (_, some c) => if c.toInt ≤ thr.toInt then r.waitcTry s d va thr else .refused .notEnabled
        | (s1, none) =>
          match s.pageAt r.t.asid va with
          | some (_, _, p) =>
            if p.st == .remote && !s.asked (.waitc g slot) then .next s1 else .refused .notEnabled
          | none => .refused .notEnabled
    | _ => .refused .notEnabled
  | none => .refused .notEnabled

/-- timewait (R216). -/
def execTimewait (a : SReg) (rel : Bit) (s : State) : Out :=
  onRun s fun r =>
    let target := if rel.toNat == 1 then (s.pk.gts + (r.sx a).toNat) % 2 ^ 64 else (r.sx a).toNat
    if target ≤ s.pk.gts then .next s else r.block s r.g (.timewait target)

/-- The group yields: in the next cycle its slot does not pick it unless no other group is eligible (R217). -/
def Run.giveWay (r : Run) (s : State) : Out := .next (r.put s { r.g with yieldTo := s.yieldEnd r.g.core })

/-- yield (R217). -/
def execYield (s : State) : Out := onRun s fun r => r.giveWay s

/-- sleep (R217). -/
def execSleep (a : SReg) (i : Bit) (n : BitVec 15) (s : State) : Out :=
  onRun s fun r =>
    let k := if i.toNat == 1 then n.toNat else min (r.sx a).toNat 1048575
    if k = 0 then r.giveWay s else r.block s r.g (.sleep (s.cyc1000 r.t.core + 1000 * k))

/-- passpri (R155, R217). -/
def execPasspri (a : SReg) (i : Bit) (g : BitVec 6) (s : State) : Out :=
  onRun s fun r =>
    let n := if i.toNat == 1 then g.toNat else (r.sx a).toNat % 64
    match (s.groupsOf r.tid).find? fun e => e.2.grp == n && e.2.st == .live with
    | none => .next s
    | some (gid, _) =>
      if n % 2 != r.g.grp % 2 then .next s
      else
        let pass (h : Option Nat) : Option Nat := if h.isNone || h == some r.gid then some gid else h
        .next (s.modCore r.t.core fun c =>
          if n % 2 = 0 then { c with tok0 := pass c.tok0 } else { c with tok1 := pass c.tok1 })

/-! ### Branches (R218, R219) -/

/-- A BRANCH record (R387). -/
def Run.traceBranch (r : Run) (s : State) (kind target : Nat) : State :=
  s.traceG r.g 1 kind (r.slot * 2 ^ 62 + target % 2 ^ 57)

/-- The split goes to a target. -/
def Run.goTo (r : Run) (s : State) (g : Group) (kind target : Nat) : Out :=
  .next (r.put (r.traceBranch s kind target) (g.setSplit r.slot { r.sp with pc := target }))

/-- bru (R218). -/
def execBru (c : BitVec 2) (sr : SReg) (off : BitVec 16) (s : State) : Out :=
  onRun s fun r => if braCond c (r.sx sr) then r.goTo s r.g 0 (r.target off) else .next s

/-- brd (R140, R218): the lanes it takes are fixed at its first issue. -/
def execBrd (sr : SReg) (off : BitVec 16) (s : State) : Out :=
  onRun s fun r0 =>
    let r := { r0 with sp := { r0.sp with brd := 0 } }
    let taken := r.act &&& (if r0.sp.brd == 0 then (r.sx sr).extractLsb' 0 32 else r0.sp.brd)
    let target := r.target off
    if taken == 0 then .next (r.put s (r.g.setSplit r.slot r.sp))
    else if taken == r.act then r.goTo s r.g 1 target
    else
      match r.g.freeSlot with
      | some j => r.divide s taken target j
      | none =>
        if r.maySpill s then r.spillNow s taken target else r.block s r.g (.spilling taken target)

/-- jmp (R218). -/
def execJmp (off : BitVec 16) (s : State) : Out := onRun s fun r => r.goTo s r.g 2 (r.target off)

/-- call (R218). -/
def execCall (sr : SReg) (off : BitVec 16) (s : State) : Out :=
  onRun s fun r => r.goTo s (r.g.setS sr.toNat (BitVec.ofNat 64 r.sp.fallThrough)) 3 (r.target off)

/-- ret (R219): what its target gives is found at the fetch. -/
def execRet (a : SReg) (s : State) : Out := onRun s fun r => r.goTo s r.g 4 (r.sx a).toNat

/-! ### Ends, traps, breakpoints (R221, R222) -/

/-- exit (R221). -/
def execExit (s : State) : Out :=
  onRun s fun r => r.finish s { (r.g.setSplit r.slot r.sp.freed) with ended := r.g.ended ||| r.act }

/-- trap (R222): SOFTWARE. -/
def execTrap (_code : BitVec 16) (s : State) : Out := onRun s fun r => r.trap s trapSoftware 0

/-- brk (R222, R389): DEBUG_BREAK, or with a debugger attached the group is held and the split stands at the clause after
the one that holds the brk. -/
def execBrk (_code : BitVec 16) (s : State) : Out :=
  onRun s fun r =>
    if ((dget s.ctxs r.t.asid).map Ctx.dbg).getD false then
      let sp := { r.sp with words := [], pos := 0, nxt := 0 }
      let g := { (r.g.setSplit r.slot sp) with dbgHeld := true, run := none }
      let s1 := s.traceG r.g 8 0 (trapDebugBreak * 2 ^ 56 + r.act.toNat)
      let s2 := r.put s1 g
      .next (if g.faulted != 0 then s2.laneFault r.gid g else s2)
    else r.trap s trapDebugBreak 0

/-! ### Launch and enqueue (R223, R224) -/

/-- Lanes with causes leave, before any record is taken up: the run that goes on (R144, R194). -/
def Run.dropFaulted (r : Run) (s : State) (cause : Nat → Nat) (va : Nat → Nat) : State × Run :=
  let bad := (lanesOf r.act).filter fun l => cause l != 0
  if bad.isEmpty then (s, r)
  else
    let cs := bad.map fun l => (⟨l, cause l, va l, r.sp.hdr, r.sp.pos + 1, r.word, s.nextId⟩ : LaneCause)
    let m := r.act &&& ~~~(maskOf bad)
    let sp := if m == 0 then r.sp.freed else { r.sp with mask := m }
    let g := (r.g.addFaults (s.cyc1000 r.t.core) cs).setSplit r.slot sp
    (s.bump, { r with g := g, sp := sp })

/-- launch (R128, R131, R223): a release of the group's earlier accesses first. -/
def execLaunch (d a : Reg7) (s : State) : Out :=
  onRun s fun r =>
    let depth := ((dget s.kernels r.t.kernel).map Kernel.depth).getD 0 + 1
    if 8 < depth then r.trap s trapNestingDepth 0
    else if !(s.covered r.gid).isEmpty then r.stall s
    else
      let off := fun l => (r.g.vreg a.toNat l).toNat
      let (s1, r1) := r.dropFaulted s (fun l => r.t.recordCause (off l) 128) off
      if r1.sp.isFree then r1.finish s1 r1.g
      else .next (r1.recordGo false (r1.put s1 r1.g).bump s1.nextId d.toNat (r1.sources a.toNat) (lanesOf r1.act))

/-- enq (R110 to R112, R224): a release first; a record that the version has no room for waits for the token (R362). -/
def execEnq (d a : Reg7) (s : State) : Out :=
  onRun s fun r =>
    if !(s.covered r.gid).isEmpty then r.stall s
    else
      let roff := fun l => ((r.g.vreg a.toNat l).extractLsb' 0 21).toNat
      let cause := fun l =>
        if (r.g.vreg a.toNat l).extractLsb' 27 5 != 0 then 0 else r.t.recordCause (roff l) 128
      let (s1, r1) := r.dropFaulted s cause roff
      if r1.sp.isFree then r1.finish s1 r1.g
      else .next (r1.recordGo true (r1.put s1 r1.g).bump s1.nextId d.toNat (r1.sources a.toNat) (lanesOf r1.act))

/-! ### System (R225, R226) -/

/-- Lost-locality score of a context on a core (R28, R153). -/
def State.lostloc (s : State) (core asid : Nat) : Nat :=
  min (2 ^ 32 - 1) (s.scores core fun t => t.asid == asid)

/-- %pritok (R28, R155). -/
def Run.pritok (r : Run) (s : State) : Nat :=
  let c := s.core r.t.core
  match if r.g.grp % 2 = 0 then c.tok0 else c.tok1 with
  | some gid =>
    match dget s.groups gid with
    | some x => if x.team == r.tid then x.grp else 0xFFFFFFFE
    | none => 0xFFFFFFFE
  | none => 0xFFFFFFFE

/-- The value of a special register that is not per lane (R28). -/
def Run.special (r : Run) (s : State) (n : Nat) : Nat :=
  match n with
  | 0x02 => r.g.grp
  | 0x03 => r.g.role
  | 0x04 => r.t.lid
  | 0x05 => ((dget s.kernels r.t.kernel).map fun k => 32 * (k.field 364 360 + 1)).getD 0
  | 0x06 => s.pk.gts
  | 0x07 => r.t.age.toNat
  | 0x08 => r.t.restarts
  | 0x09 => r.t.asid
  | 0x0A => r.t.core
  | 0x0B => r.t.core / 4 % 16
  | 0x0C => clusterOf r.t.core
  | 0x0D => r.t.wbase
  | 0x0E => r.t.wsize
  | 0x0F => r.g.fmode.toNat
  | 0x20 => s.cyc1000 r.t.core / 1000
  | 0x21 => dgetD (s.core r.t.core).issued r.t.asid 0
  | 0x22 => s.lostloc r.t.core r.t.asid
  | 0x23 => if s.memAllowed r.g r.t then 1 else 0
  | _ => r.pritok s

/-- srd (R28, R225). -/
def execSrd (d : Reg7) (reg : BitVec 8) (s : State) : Out :=
  onRun s fun r =>
    match reg.toNat with
    | 0 => r.vec32 s d fun l => BitVec.ofNat 32 l
    | 1 => r.vec32 s d fun l => BitVec.ofNat 32 (r.g.tid.getD l 0)
    | n => r.scal s d (BitVec.ofNat 64 (r.special s n))

/-- swr (R30, R225): reserved bits are ignored. -/
def execSwr (a : Reg7) (_reg : BitVec 8) (s : State) : Out :=
  onRun s fun r => .next (r.put s { r.g with fmode := (r.sc a).extractLsb' 0 32 &&& 1 })

/-- tmark (R226, R387). -/
def execTmark (a : SReg) (code : BitVec 16) (s : State) : Out :=
  onRun s fun r => .next (s.traceG r.g 9 0 (code.toNat * 2 ^ 48 + (r.sx a).toNat % 2 ^ 48))

end Sys2Proof.Machine
end

