-- ==== Sys2Proof/Machine/Chandler.lean ====
section
/-!
DEFINITION. The chandler: pools, blocks and skeins (16_blocks_skeins.md R334 to R352). Each instruction is performed as
one step at its completion; in a VERSIONED team some are held with the version (R347).
-/
namespace Sys2Proof.Machine

/-! ### Free lists and blocks (R336 to R339) -/

/-- Home chandlers of a pool, ascending (R336). -/
def Pool.homeList (p : Pool) : List Nat := (List.range 24).filter fun k => p.homes.getLsbD k

/-- Home chandler of block b (R336). -/
def Pool.homeOf (p : Pool) (b : Nat) : Nat := p.homeList.getD (b % p.homeList.length) 0

/-- A free list at definition: the k-th home holds blocks k, k + H, ... (R336). -/
def Pool.listOf (p : Pool) (home : Nat) : FreeList := dgetD p.free home ⟨[], p.homeList.idxOf home⟩

/-- The list is empty. -/
def Pool.emptyAt (p : Pool) (home : Nat) : Bool :=
  let l := p.listOf home
  l.pushed.isEmpty && p.nblk ≤ l.next

/-- Blocks of a list. -/
def Pool.freeAt (p : Pool) (home : Nat) : Nat :=
  let l := p.listOf home
  let h := p.homeList.length
  l.pushed.length + (if l.next < p.nblk then (p.nblk - l.next + h - 1) / h else 0)

/-- Take the head of a home's list (R336). -/
def Pool.takeAt (p : Pool) (home : Nat) : Option (Nat × Pool) :=
  let l := p.listOf home
  match l.pushed with
  | b :: bs => some (b, { p with free := dset p.free home { l with pushed := bs } })
  | [] =>
    if l.next < p.nblk then
      some (l.next, { p with free := dset p.free home { l with next := l.next + p.homeList.length } })
    else none

/-- Push a block at the head of its chandler's list (R336). -/
def Pool.push (p : Pool) (b : Nat) : Pool :=
  let home := p.homeOf b
  let l := p.listOf home
  { p with free := dset p.free home { l with pushed := b :: l.pushed } }

/-- Set a descriptor. -/
def Ctx.setDesc (c : Ctx) (va : Nat) (d : Block1) : Ctx := { c with blocks := dset c.blocks va d }

/-- An ALLOCATED block by its own VA (R349). -/
def Ctx.block (c : Ctx) (va : Nat) : Option Block1 :=
  match c.allocAt va with
  | some (v, _, d) => if v == va then some d else none
  | none => none

/-- A block becomes FREE and is pushed at the head of its chandler's list (R338). -/
def Ctx.freeBlock (c : Ctx) (va : Nat) : Ctx :=
  match c.blockAt va with
  | some (k, p, b) => { (c.setDesc va { c.desc p b with ref := 0, alloc := false }) with pools := dset c.pools k (p.push b) }
  | none => c

/-- One reference less; at zero the block becomes FREE (R338). -/
def Ctx.unref (c : Ctx) (va : Nat) (d : Block1) : Ctx :=
  if d.ref ≤ 1 then c.freeBlock va else c.setDesc va { d with ref := d.ref - 1 }

/-- A skein drops its reference; a block found FREE counts in REF_FAULT (R339). -/
def Ctx.drop (c : Ctx) (va : Nat) : Ctx :=
  match c.block va with
  | some d => c.unref va d
  | none => { c with refFault := c.refFault + 1 }

/-- alloc (R336, R338, R350): home chandlers on the die of the core first. -/
def Ctx.alloc (c : Ctx) (die pool : Nat) : Ctx × Nat :=
  match dget c.pools pool with
  | none => (c, 0)
  | some p =>
    let hs := p.homeList
    let order := hs.filter (fun h => h / 6 == die) ++ hs.filter fun h => h / 6 != die
    match order.find? fun h => !p.emptyAt h with
    | none => (c, 0)
    | some h =>
      match p.takeAt h with
      | none => (c, 0)
      | some (b, p1) =>
        let va := p.blockVa b
        let d := c.desc p b
        let d1 : Block1 := ⟨(d.gen + 1) % 2 ^ 32, 0, 1, p.fmt, p.dm1, true⟩
        ({ c with pools := dset c.pools pool p1 }.setDesc va d1, va)

/-! ### Skeins (R341 to R344) -/

/-- E[i] of a skein. -/
def Skein.entry (k : Skein) (i : Nat) : Nat := sget 0 k.e i

/-- Window blocks appended (R341). -/
def Skein.nw (k : Skein) : Nat := k.nb - k.ns

/-- The wrap generation (R341). -/
def Skein.gen (k : Skein) : Nat := if k.ring then k.nw / k.win else 0

/-- The slot of window index w. -/
def Skein.slot (k : Skein) (w : Nat) : Nat := k.ns + w % k.win

/-- map(p) (R342): status, slot, and row. -/
def Skein.map (k : Skein) (p : Nat) : Nat × Nat × Nat :=
  if p < k.ns * k.tpb then
    if k.nb ≤ p / k.tpb then (6, 0, 0) else (0, p / k.tpb, p % k.tpb)
  else
    let w := (p - k.ns * k.tpb) / k.tpb
    if k.nw ≤ w then (6, 0, 0)
    else if w < k.old then (5, 0, 0)
    else (0, k.slot w, (p - k.ns * k.tpb) % k.tpb)

/-- append(va, setpb) (R343): the skein, the entry it replaces, and the first position; none when FULL. -/
def Skein.append (k : Skein) (va : Nat) : Option (Skein × Nat × Nat) :=
  let first := k.nb * k.tpb
  if k.nb < k.ns then some ({ k with e := sset 0 k.e k.nb va, nb := k.nb + 1 }, 0, first)
  else
    let w := k.nb - k.ns
    if !k.ring && w = k.win then none
    else
      let i := k.slot w
      some ({ k with e := sset 0 k.e i va, nb := k.nb + 1, old := max k.old (w + 1 - k.win) }, k.entry i, first)

/-- The slots that hold a block appended as index n or later (R343). -/
def Skein.slotsFrom (k : Skein) (n : Nat) : List Nat :=
  let sinks := (List.range k.ns).filter fun j => n ≤ j && j < k.nb
  let lo := max k.old (n - k.ns)
  sinks ++ (List.range (k.nw - lo)).map fun i => k.slot (lo + i)

/-- trim(n) (R343): the skein and the entries dropped. -/
def Skein.trim (k : Skein) (n : Nat) : Skein × List Nat :=
  let sl := k.slotsFrom n
  ({ k with e := sl.foldl (fun e i => sset 0 e i 0) k.e, nb := n, old := min k.old (n - k.ns) },
    sl.map k.entry)

/-- The parameter word of sknew (R349). -/
def skeinOf (w : DWord) : Option Skein :=
  let ring := w.getLsbD 0
  let ns := (w.extractLsb' 8 8).toNat
  let win := (w.extractLsb' 16 12).toNat + 1
  let tpb := (w.extractLsb' 32 12).toNat + 1
  if w.extractLsb' 44 20 != 0 || w.extractLsb' 28 4 != 0 || w.extractLsb' 1 7 != 0 then none
  else if !ring && 4096 < ns + win then none
  else some ⟨ring, ns, win, tpb, 0, 0, []⟩

/-- Arena bytes of a skein (R341). -/
def Skein.bytes (k : Skein) : Nat := 64 + 8 * (k.ns + k.win)

/-- The lowest free skein id that passes a test (R350). -/
def Ctx.freeSkein (c : Ctx) (p : Nat → Bool) : Option Nat :=
  (List.range 65536).find? fun k => p k && (dget c.skeins k).isNone

/-- The id of a new skein: on the core's die if any is free there (R350). -/
def Ctx.newSkeinId (c : Ctx) (die : Nat) : Option Nat :=
  match c.freeSkein fun k => k % 24 / 6 == die with
  | some k => some k
  | none => c.freeSkein fun _ => true

/-- Drop every entry of a skein and free its id (R344). -/
def Ctx.delSkein (c : Ctx) (id : Nat) (k : Skein) : Ctx :=
  let c1 := ((k.slotsFrom 0).map k.entry).foldl Ctx.drop c
  { c1 with skeins := ddel c1.skeins id }

/-! ### Operations by number -/

/-- A status result: STATUS in [63:56], a value in [55:0] (R348). -/
def statusWord (st v : Nat) : DWord := BitVec.ofNat 64 (st * 2 ^ 56 + v % 2 ^ 56)

/-- An argument of an operation. -/
def arg (args : List DWord) (i : Nat) : DWord := args.getD i 0

/-- skset (R350): VA, PB, control word. -/
def Ctx.skset (c : Ctx) (va : Nat) (pb ctl : DWord) : Ctx × DWord :=
  match c.block va, c.blockAt va with
  | some d, some (_, p, _) =>
    let fmt := (ctl.extractLsb' 0 4).toNat
    let dm1 := (ctl.extractLsb' 16 12).toNat
    let spb := ctl.getLsbD 31
    let sfmt := ctl.getLsbD 30
    if ctl.extractLsb' 32 32 != 0 || ctl.extractLsb' 28 2 != 0 || ctl.extractLsb' 4 12 != 0 || 12 < fmt
        || p.size < (dm1 + 1) * typeBytes fmt || (!spb && !sfmt) then (c, statusWord 12 0)
    else
      let gen := (d.gen + 1) % 2 ^ 32
      let d1 := { d with gen := gen, pb := if spb then pb else d.pb, fmt := if sfmt then fmt else d.fmt,
                         dm1 := if sfmt then dm1 else d.dm1 }
      (c.setDesc va d1, statusWord 0 gen)
  | _, _ => (c, statusWord 3 0)

/-- skswap (R350): id, position, old VA, new VA. -/
def Ctx.skswap (c : Ctx) (id pos old new : Nat) : Ctx × DWord :=
  match dget c.skeins id with
  | none => (c, statusWord 4 0)
  | some k =>
    let (st, i, _) := k.map pos
    if st != 0 then (c, statusWord st 0)
    else if k.entry i != old then (c, statusWord 8 0)
    else if (c.block new).isNone then (c, statusWord 3 0)
    else if new = old then (c, statusWord 12 0)
    else ({ c with skeins := dset c.skeins id { k with e := sset 0 k.e i new } }.drop old, statusWord 0 0)

/-- skapp (R343, R350): id, VA, .pb. -/
def Ctx.skapp (c : Ctx) (id va : Nat) (pb : Bool) : Ctx × DWord :=
  match dget c.skeins id with
  | none => (c, statusWord 4 0)
  | some k =>
    match c.block va with
    | none => (c, statusWord 3 0)
    | some d =>
      match k.append va with
      | none => (c, statusWord 7 0)
      | some (k1, old, first) =>
        let c1 := { c with skeins := dset c.skeins id k1 }
        let c2 := if pb then c1.setDesc va { d with pb := BitVec.ofNat 64 first, gen := (d.gen + 1) % 2 ^ 32 } else c1
        (if old = 0 then c2 else c2.drop old, statusWord 0 first)

/-- sklook (R342, R350): block VA and result word. -/
def Ctx.sklook (c : Ctx) (id pos : Nat) : List DWord :=
  match dget c.skeins id with
  | none => [0, statusWord 4 0]
  | some k =>
    let (st, i, t) := k.map pos
    if st != 0 then [0, statusWord st (k.gen % 2 ^ 32)]
    else
      let va := k.entry i
      let shared := ((c.block va).map fun d => decide (1 < d.ref)).getD false
      [BitVec.ofNat 64 va, statusWord 0 ((if shared then 2 ^ 55 else 0) + t * 2 ^ 32 + k.gen % 2 ^ 32)]

/-- skclone (R350). -/
def Ctx.skclone (c : Ctx) (fits : Nat → Bool) (die id : Nat) : Ctx × DWord :=
  match dget c.skeins id with
  | none => (c, statusWord 4 0)
  | some k =>
    let vas := (k.slotsFrom 0).map k.entry
    let near := c.freeSkein fun j => j % 24 == id % 24
    let new := match near with
      | some j => some j
      | none => c.newSkeinId die
    match new with
    | none => (c, statusWord 10 0)
    | some j =>
      if !fits k.bytes then (c, statusWord 10 0)
      else if vas.any fun va =>
          ((c.block va).map fun d => decide (2 ^ 32 - 1 < d.ref + (vas.filter (· == va)).length)).getD false then (c, statusWord 11 0)
      else
        let c1 := vas.foldl (fun c va =>
          match c.block va with
          | some d => c.setDesc va { d with ref := d.ref + 1 }
          | none => c) c
        ({ c1 with skeins := dset c1.skeins j k }, statusWord 0 j)

/-- poolq (R350). -/
def Ctx.poolq (c : Ctx) (pool : Nat) : DWord :=
  match dget c.pools pool with
  | none => statusWord 2 0
  | some p =>
    let n := p.homeList.foldl (fun n h => n + p.freeAt h) 0
    statusWord (if n = 0 then 1 else 0) (p.bsc * 2 ^ 52 + n * 2 ^ 24 + p.nblk)

/-- One chandler operation on a context, for a core's die; `fits` says whether the arena has room. Operations: 0 alloc,
1 free, 2 sknew, 3 skapp, 4 sklook, 5 sktrim, 6 skclone, 7 skset, 8 skswap, 9 refinc, 10 refdec, 11 poolq, 12 sktrim.del;
13 the undo of an alloc (R347). The context and the scalar results (R350). -/
def Ctx.chandler (c : Ctx) (fits : Nat → Bool) (die op : Nat) (args : List DWord) : Ctx × List DWord :=
  let a := (arg args 0).toNat
  let one (r : Ctx × DWord) : Ctx × List DWord := (r.1, [r.2])
  match op with
  | 0 => let r := c.alloc die (a % 256); (r.1, [BitVec.ofNat 64 r.2])
  | 1 =>
    match c.block a with
    | none => (c, [statusWord 3 0])
    | some d => if 1 < d.ref then (c, [statusWord 9 0]) else (c.freeBlock a, [statusWord 0 0])
  | 2 =>
    match skeinOf (arg args 0) with
    | none => (c, [statusWord 12 0])
    | some k =>
      match c.newSkeinId die with
      | some j => if fits k.bytes then ({ c with skeins := dset c.skeins j k }, [statusWord 0 j]) else (c, [statusWord 10 0])
      | none => (c, [statusWord 10 0])
  | 3 => one (c.skapp (a % 65536) (arg args 1).toNat (arg args 2 != 0))
  | 4 => (c, c.sklook (a % 65536) (arg args 1).toNat)
  | 5 =>
    match dget c.skeins (a % 65536) with
    | none => (c, [statusWord 4 0])
    | some k =>
      let n := (arg args 1).toNat
      if k.nb < n then (c, [statusWord 12 0])
      else
        let (k1, vas) := k.trim n
        (vas.foldl Ctx.drop { c with skeins := dset c.skeins (a % 65536) k1 }, [statusWord 0 0])
  | 6 => one (c.skclone fits die (a % 65536))
  | 7 => one (c.skset a (arg args 1) (arg args 2))
  | 8 => one (c.skswap (a % 65536) (arg args 1).toNat (arg args 2).toNat (arg args 3).toNat)
  | 9 =>
    match c.block a with
    | none => (c, [statusWord 3 0])
    | some d =>
      if d.ref = 2 ^ 32 - 1 then (c, [statusWord 11 0])
      else (c.setDesc a { d with ref := d.ref + 1 }, [statusWord 0 d.ref])
  | 10 =>
    match c.block a with
    | none => (c, [statusWord 3 0])
    | some d => (c.unref a d, [statusWord 0 d.ref])
  | 11 => (c, [c.poolq (a % 256)])
  | 12 =>
    match dget c.skeins (a % 65536) with
    | none => (c, [statusWord 4 0])
    | some k => (c.delSkein (a % 65536) k, [statusWord 0 0])
  | _ => (if (c.block a).isSome then c.freeBlock a else c, [])

/-- STATUS of a result. -/
def statusOf (rs : List DWord) : Nat := (arg rs 0).toNat / 2 ^ 56

/-- A chandler operation performed on the state (R345). -/
def State.chandlerOp (s : State) (asid core op : Nat) (args : List DWord) : State × List DWord :=
  match dget s.ctxs asid with
  | none => (s, [])
  | some c =>
    let r := c.chandler (fun n => s.arenaFits asid n) (dieOf (clusterOf core)) op args
    ({ s with ctxs := dset s.ctxs asid r.1 }, r.2)

/-! ### Versioned teams (R347) -/

/-- Held with the version and performed at commit: free, refdec, skapp, sktrim, skswap, skset. -/
def chandlerHeld (op : Nat) : Bool := op == 1 || op == 10 || op == 3 || op == 5 || op == 12 || op == 8 || op == 7

/-- Charged to the version: all but sklook and poolq (R361). -/
def chandlerCharged (op : Nat) : Bool := op != 4 && op != 11

/-- The context as a team sees it: its held operations applied, in issue order (R347). -/
def State.heldView (s : State) (t : Team) : State :=
  t.ver.helds.foldl (fun s i => (s.chandlerOp t.asid t.core i.op i.args).1) s

/-- What undoes an immediate operation, from its result; `took` says whether an alloc took a block (R347). -/
def chandlerUndo (took : Bool) (inst raw op : Nat) (args rs : List DWord) : List ChandlerItem :=
  match op with
  | 0 => if took then [⟨13, rs, inst, raw⟩] else []
  | 9 => if statusOf rs = 0 then [⟨10, args, inst, raw⟩] else []
  | 2 => if statusOf rs = 0 then [⟨12, rs, inst, raw⟩] else []
  | 6 => if statusOf rs = 0 then [⟨12, rs, inst, raw⟩] else []
  | _ => []

/-- The undos of a version with those of one more operation: the latest issued first (R347). -/
def addUndo (new us : List ChandlerItem) : List ChandlerItem :=
  match new with
  | [] => us
  | i :: _ => (us.filter fun u => i.inst < u.inst) ++ new ++ us.filter fun u => u.inst ≤ i.inst

/-- The pools of a context. -/
def State.poolsOf (s : State) (asid : Nat) : Dict Pool := ((dget s.ctxs asid).map Ctx.pools).getD []

/-- Perform an operation in flight for its team, with the die of the core that issued it: for a forming version a held one only
answers with its status in the team's view, sklook and poolq see that view, and an immediate one leaves its undo (R336, R347,
R350). -/
def State.chandlerFor (s : State) (id : Nat) (o : Op) (t : Team) (op : Nat) (args : List DWord) : State × List DWord :=
  if !t.forming then s.chandlerOp t.asid o.core op args
  else if chandlerHeld op then (s, [])
  else if !chandlerCharged op then (s, ((s.heldView t).chandlerOp t.asid o.core op args).2)
  else
    let r := s.chandlerOp t.asid o.core op args
    let new := chandlerUndo (s.poolsOf t.asid != r.1.poolsOf t.asid) id (opcodeOf o.word) op args r.2
    (r.1.modTeam o.team fun t => { t with ver := { t.ver with undo := addUndo new t.ver.undo } }, r.2)

/-- The orders of R346 and R242 that make an operation a release of the group's earlier accesses. -/
def chandlerReleases (op : Nat) : Bool :=
  op == 3 || op == 8 || op == 5 || op == 12 || op == 7 || op == 1 || op == 9 || op == 10

/-- ISSUE of a chandler instruction (R347, R348): operands are captured; in a forming version a held operation joins it
here, with its status; one without room in the budget is held for the token (R362). -/
def chandlerIssue (op : Nat) (dc : DcField) (d : List Nat) (args : Run → List DWord) (s : State) : Out :=
  onRun s fun r =>
    if r.full (dcOf dc) then r.stall s
    else
      let as := args r
      let waits := if chandlerReleases op then s.covered r.gid else []
      let issue (s : State) (w : Work) (out : List (Nat × DWord)) : Out :=
        .next (r.issueOp s r.g .chandler (dcOf dc) waits w [] out)
      let res (rs : List DWord) : List (Nat × DWord) := (d.zipIdx).map fun (n, i) => (n, arg rs i)
      if r.t.forming && chandlerCharged op then
        if s.budgetOf r.t < r.t.ver.used + 32 then issue (s.askToken r.tid) (.chandler op as true) (res [])
        else
          let s1 := s.modTeam r.tid fun t => { t with ver := { t.ver with used := t.ver.used + 32 } }
          if chandlerHeld op then
            let rs := ((s.heldView r.t).chandlerOp r.t.asid r.t.core op as).2
            issue (s1.modTeam r.tid fun t => { t with ver := { t.ver with
              helds := t.ver.helds ++ [⟨op, as, s.nextId, opcodeOf r.word⟩] } })
              .none (res rs)
          else issue s1 (.chandler op as false) (res [])
      else issue s (.chandler op as false) (res [])

/-- alloc (R350). -/
def execAlloc (f : Ch) (s : State) : Out := chandlerIssue 0 f.dc [f.d.toNat] (fun r => [r.sx f.a]) s
/-- free (R350). -/
def execFree (f : Ch) (s : State) : Out := chandlerIssue 1 f.dc [f.d.toNat] (fun r => [r.sx f.a]) s
/-- sknew (R349, R350). -/
def execSknew (f : Ch) (s : State) : Out := chandlerIssue 2 f.dc [f.d.toNat] (fun r => [r.sx f.a]) s
/-- skapp and skapp.pb (R343, R350). -/
def execSkapp (f : Ch3) (pb : Bit) (s : State) : Out :=
  chandlerIssue 3 f.dc [f.d.toNat] (fun r => [r.sx f.a, r.sx f.b, BitVec.ofNat 64 pb.toNat]) s
/-- sklook (R342, R350): pairs named by their even scalars. -/
def execSklook (f : Ch) (s : State) : Out :=
  chandlerIssue 4 f.dc [f.d.toNat, f.d.toNat + 1] (fun r => [r.sx f.a, r.g.sreg (f.a.toNat + 1)]) s
/-- sktrim (R343, R350). -/
def execSktrim (f : Ch3) (s : State) : Out := chandlerIssue 5 f.dc [f.d.toNat] (fun r => [r.sx f.a, r.sx f.b]) s
/-- sktrim.del (R344, R350). -/
def execSktrimDel (f : Ch) (s : State) : Out := chandlerIssue 12 f.dc [f.d.toNat] (fun r => [r.sx f.a]) s
/-- skclone (R350). -/
def execSkclone (f : Ch) (s : State) : Out := chandlerIssue 6 f.dc [f.d.toNat] (fun r => [r.sx f.a]) s
/-- skset (R350). -/
def execSkset (f : Ch3) (s : State) : Out :=
  chandlerIssue 7 f.dc [f.d.toNat] (fun r => [r.sx f.a, r.sx f.b, r.g.sreg (f.b.toNat + 1)]) s
/-- skswap (R350). -/
def execSkswap (f : Ch3) (s : State) : Out :=
  chandlerIssue 8 f.dc [f.d.toNat]
    (fun r => [r.sx f.a, r.g.sreg (f.a.toNat + 1), r.sx f.b, r.g.sreg (f.b.toNat + 1)]) s
/-- refinc (R350, R242). -/
def execRefinc (f : Ch) (s : State) : Out := chandlerIssue 9 f.dc [f.d.toNat] (fun r => [r.sx f.a]) s
/-- refdec (R350, R242). -/
def execRefdec (f : Ch) (s : State) : Out := chandlerIssue 10 f.dc [f.d.toNat] (fun r => [r.sx f.a]) s
/-- poolq (R350). -/
def execPoolq (f : Ch) (s : State) : Out := chandlerIssue 11 f.dc [f.d.toNat] (fun r => [r.sx f.a]) s

/-- A chandler operation in flight is performed as one step: its result is written, and sklook and refdec acquire (R242, R345,
R346). -/
def State.chandlerDone (s : State) (op : Nat) (o : Op) (t : Team) (k : Nat) (args : List DWord) : State :=
  let (s1, rs) := s.chandlerFor op o t k args
  let s2 := if chandlerAcquires k then s1.acquireL1 t.core t.asid 1 4 else s1
  s2.retireOp op { o with work := .none, sout := (o.sout.zipIdx).map fun (e, i) => (e.1, arg rs i) }

/-- CHANDLER_OP_COMPLETE: the operation is performed as one step, its result is written and its counter decrements
(R345, R346, R350). One held for the token waits for its grant, and is dropped where its team has stopped (R137, R347, R362, R364). -/
def execChandlerOpComplete (op : Nat) (s : State) : Out :=
  match dget s.flight op with
  | none => .refused .notEnabled
  | some o =>
    if o.fam != .chandler || !(o.waits.all s.performed) then .refused .notEnabled
    else
      match o.work, dget s.teams o.team with
      | .chandler k args held, some t =>
        if !(held && t.forming) then .next (s.chandlerDone op o t k args)
        else if t.st == .halting then .next (s.retireOp op { o with work := .none, sout := [] })
        else .refused .notEnabled
      | .none, some _ => .next (s.retireOp op o)
      | _, _ => .refused .notEnabled

end Sys2Proof.Machine
end

