-- ==== Sys2Proof/Machine/Compute.lean ====
section
/-!
DEFINITION. The meanings of classes 0 and 1: vector and scalar integer, and floating point (09_compute_instructions.md
R165 to R182). Results are written at issue; no instruction here traps or sets a flag (R163).
-/
namespace Sys2Proof.Machine

/-! ### Vector integer -/

/-- vadd (R165). -/
def execVadd (w : Bit) (f : F3) (s : State) : Out :=
  vecWide s w f (fun r l => r.a32 f l + r.b32 f l) (fun r l => r.a64 f l + r.b64 f l)

/-- vsub (R165). -/
def execVsub (w : Bit) (f : F3) (s : State) : Out :=
  vecWide s w f (fun r l => r.a32 f l - r.b32 f l) (fun r l => r.a64 f l - r.b64 f l)

/-- vmullo (R165). -/
def execVmullo (w : Bit) (f : F3) (s : State) : Out :=
  vecWide s w f (fun r l => r.a32 f l * r.b32 f l) (fun r l => r.a64 f l * r.b64 f l)

/-- vmulhi (R165): .i32, or .n32 when `u` is 1. -/
def execVmulhi (u : Bit) (f : F3) (s : State) : Out := vecBin s f (if u.toNat == 1 then mulHiU else mulHiS)

/-- vmad (R165). -/
def execVmad (w : Bit) (f : F3) (s : State) : Out :=
  vecWide s w f (fun r l => r.a32 f l * r.b32 f l + r.g.vreg f.d.toNat l)
    (fun r l => r.a64 f l * r.b64 f l + r.g.vreg2 f.d.toNat l)

/-- vmin (R165). -/
def execVmin (u : Bit) (f : F3) (s : State) : Out := vecBin s f (minMax u false)

/-- vmax (R165). -/
def execVmax (u : Bit) (f : F3) (s : State) : Out := vecBin s f (minMax u true)

/-- vabs (R165). -/
def execVabs (f : U3) (s : State) : Out := vecUn s f fun _ => absW

/-- vneg (R165). -/
def execVneg (f : U3) (s : State) : Out := vecUn s f fun _ b => 0 - b

/-- vand (R165). -/
def execVand (f : F3) (s : State) : Out := vecBin s f (· &&& ·)

/-- vor (R165). -/
def execVor (f : F3) (s : State) : Out := vecBin s f (· ||| ·)

/-- vxor (R165). -/
def execVxor (f : F3) (s : State) : Out := vecBin s f (· ^^^ ·)

/-- vnot (R165). -/
def execVnot (f : U3) (s : State) : Out := vecUn s f fun _ b => ~~~b

/-- vshl (R165). -/
def execVshl (f : F3) (s : State) : Out := vecBin s f fun a b => a <<< shCount b

/-- vshr (R165). -/
def execVshr (f : F3) (s : State) : Out := vecBin s f fun a b => a >>> shCount b

/-- vsar (R165). -/
def execVsar (f : F3) (s : State) : Out := vecBin s f fun a b => a.sshiftRight (shCount b)

/-- vrot (R165). -/
def execVrot (f : F3) (s : State) : Out := vecBin s f rotW

/-- vpopc (R165). -/
def execVpopc (f : U3) (s : State) : Out := vecUn s f fun _ b => BitVec.ofNat 32 (popCount b)

/-- vclz (R165). -/
def execVclz (f : U3) (s : State) : Out := vecUn s f fun _ b => BitVec.ofNat 32 (clzW b)

/-- vbfe (R166): .n32, or .i32 when `u` is 1 (0x01B). -/
def execVbfe (u : Bit) (f : F3) (s : State) : Out := vecBin s f (bfe u)

/-- vbfi (R166). -/
def execVbfi (f : F3) (s : State) : Out :=
  onRun s fun r => r.vec32 s f.d fun l => bfi (r.a32 f l) (r.b32 f l) (r.g.vreg f.d.toNat l)

/-- vcmp (R167). -/
def execVcmp (c : BitVec 4) (f : F3) (s : State) : Out :=
  onRun s fun r => r.mask s f.d fun l => intCond c (r.a32 f l) (r.b32 f l)

/-- vmovl (R168). -/
def execVmovl (d : Reg7) (lit : Word) (s : State) : Out := onRun s fun r => r.vec32 s d fun _ => lit

/-- vaddc (R169): the carry masks are read at issue. -/
def execVaddc (f : F3) (co ci : SReg) (s : State) : Out :=
  onRun s fun r =>
    let t := fun l => addCarry (r.a32 f l) (r.b32 f l) ((r.sx ci).getLsbD l)
    let g := r.g.writeV f.d.toNat r.act fun l => (t l).1
    .next (r.put s (g.setS co.toNat (zext (maskWhere r.act fun l => (t l).2))))

/-- vsubb (R169). -/
def execVsubb (f : F3) (co ci : SReg) (s : State) : Out :=
  onRun s fun r =>
    let t := fun l => subBorrow (r.a32 f l) (r.b32 f l) ((r.sx ci).getLsbD l)
    let g := r.g.writeV f.d.toNat r.act fun l => (t l).1
    .next (r.put s (g.setS co.toNat (zext (maskWhere r.act fun l => (t l).2))))

/-- vsel (R170). -/
def execVsel (f : F3) (sm : SReg) (s : State) : Out :=
  onRun s fun r => r.vec32 s f.d fun l => if (r.sx sm).getLsbD l then r.a32 f l else r.b32 f l

/-- vmov (R165). -/
def execVmov (w : Bit) (f : U3) (s : State) : Out :=
  onRun s fun r =>
    if w.toNat == 1 then r.vec64 s f.d fun l => r.src64 f.b f.sb l else r.vec32 s f.d fun l => r.src32 f.b f.sb l

/-! ### Scalar integer -/

/-- sadd (R171). -/
def execSadd (f : S3) (s : State) : Out := scBin s f (· + ·)

/-- ssub (R171). -/
def execSsub (f : S3) (s : State) : Out := scBin s f (· - ·)

/-- smullo (R171). -/
def execSmullo (f : S3) (s : State) : Out := scBin s f (· * ·)

/-- smulhi.i64 (R171). -/
def execSmulhiI64 (f : S3) (s : State) : Out := scBin s f mulHiS

/-- smulhi.n64 (R171). -/
def execSmulhiN64 (f : S3) (s : State) : Out := scBin s f mulHiU

/-- smad (R171). -/
def execSmad (f : S3) (s : State) : Out := onRun s fun r => r.scal s f.d (r.sc f.a * r.sc f.b + r.sc f.d)

/-- smin (R171). -/
def execSmin (u : Bit) (f : S3) (s : State) : Out := scBin s f (minMax u false)

/-- smax (R171). -/
def execSmax (u : Bit) (f : S3) (s : State) : Out := scBin s f (minMax u true)

/-- sabs (R171). -/
def execSabs (f : SU) (s : State) : Out := scUn s f absW

/-- sneg (R171). -/
def execSneg (f : SU) (s : State) : Out := scUn s f fun b => 0 - b

/-- sand (R171). -/
def execSand (f : S3) (s : State) : Out := scBin s f (· &&& ·)

/-- sor (R171). -/
def execSor (f : S3) (s : State) : Out := scBin s f (· ||| ·)

/-- sxor (R171). -/
def execSxor (f : S3) (s : State) : Out := scBin s f (· ^^^ ·)

/-- snot (R171). -/
def execSnot (f : SU) (s : State) : Out := scUn s f fun b => ~~~b

/-- sshl (R171). -/
def execSshl (f : S3) (s : State) : Out := scBin s f fun a b => a <<< shCount b

/-- sshr (R171). -/
def execSshr (f : S3) (s : State) : Out := scBin s f fun a b => a >>> shCount b

/-- ssar (R171). -/
def execSsar (f : S3) (s : State) : Out := scBin s f fun a b => a.sshiftRight (shCount b)

/-- srot (R171). -/
def execSrot (f : S3) (s : State) : Out := scBin s f rotW

/-- spopc (R171). -/
def execSpopc (f : SU) (s : State) : Out := scUn s f fun b => BitVec.ofNat 64 (popCount b)

/-- sclz (R171). -/
def execSclz (f : SU) (s : State) : Out := scUn s f fun b => BitVec.ofNat 64 (clzW b)

/-- sbfe (R171): .n64, or .i64 when `u` is 1 (0x057). -/
def execSbfe (u : Bit) (f : S3) (s : State) : Out := scBin s f (bfe u)

/-- sbfi (R171). -/
def execSbfi (f : S3) (s : State) : Out := onRun s fun r => r.scal s f.d (bfi (r.sc f.a) (r.sc f.b) (r.sc f.d))

/-- smov (R171). -/
def execSmov (f : SU) (s : State) : Out := scUn s f fun b => b

/-- ssel (R172). -/
def execSsel (f : S3) (sm : SReg) (s : State) : Out :=
  onRun s fun r => r.scal s f.d (if r.sx sm != 0 then r.sc f.a else r.sc f.b)

/-- scmp (R172). -/
def execScmp (c : BitVec 4) (f : S3) (s : State) : Out :=
  onRun s fun r => r.scal s f.d (if intCond c (r.sc f.a) (r.sc f.b) then 1 else 0)

/-- saddc (R172). -/
def execSaddc (f : S3) (co ci : SReg) (s : State) : Out :=
  onRun s fun r =>
    let t := addCarry (r.sc f.a) (r.sc f.b) ((r.sx ci).getLsbD 0)
    .next (r.put s ((r.g.setS f.d.toNat t.1).setS co.toNat (if t.2 then 1 else 0)))

/-- ssubb (R172). -/
def execSsubb (f : S3) (co ci : SReg) (s : State) : Out :=
  onRun s fun r =>
    let t := subBorrow (r.sc f.a) (r.sc f.b) ((r.sx ci).getLsbD 0)
    .next (r.put s ((r.g.setS f.d.toNat t.1).setS co.toNat (if t.2 then 1 else 0)))

/-- smovl and smovl.hi (R173). -/
def execSmovl (d : Reg7) (hi : Bit) (lit : Word) (s : State) : Out :=
  onRun s fun r =>
    r.scal s d (if hi.toNat == 1 then lit ++ (r.sc d).extractLsb' 0 32 else lit.signExtend 64)

/-- saddl (R173). -/
def execSaddl (d a : Reg7) (lit : Word) (s : State) : Out := onRun s fun r => r.scal s d (r.sc a + lit.signExtend 64)

/-! ### Floating point -/

/-- vfadd (R174). -/
def execVfadd (rm : BitVec 2) (f : F3) (s : State) : Out := vecFp s f (fadd32 (rmode rm))

/-- vfsub (R174). -/
def execVfsub (rm : BitVec 2) (f : F3) (s : State) : Out := vecFp s f (fsub32 (rmode rm))

/-- vfmul (R174). -/
def execVfmul (rm : BitVec 2) (f : F3) (s : State) : Out := vecFp s f (fmul32 (rmode rm))

/-- vfma (R174): a · b + d, fused. -/
def execVfma (rm : BitVec 2) (f : F3) (s : State) : Out :=
  onRun s fun r => r.vec32 s f.d fun l => ffma32 (rmode rm) r.ftz (r.a32 f l) (r.b32 f l) (r.g.vreg f.d.toNat l)

/-- vfmal (R174): a · b + literal, fused. -/
def execVfmal (rm : BitVec 2) (f : F3) (lit : Word) (s : State) : Out :=
  onRun s fun r => r.vec32 s f.d fun l => ffma32 (rmode rm) r.ftz (r.a32 f l) (r.b32 f l) lit

/-- vfmin (R175). -/
def execVfmin (f : F3) (s : State) : Out := vecFp s f (fminmax32 false)

/-- vfmax (R175). -/
def execVfmax (f : F3) (s : State) : Out := vecFp s f (fminmax32 true)

/-- vfcmp (R176). -/
def execVfcmp (c : BitVec 3) (f : F3) (s : State) : Out :=
  onRun s fun r => r.mask s f.d fun l => fcmp32 c r.ftz (r.a32 f l) (r.b32 f l)

/-- vfclass (R177): FTZ is ignored. -/
def execVfclass (f : U3) (s : State) : Out := vecUn s f fun _ => fclass32

/-- vfrnd (R178). -/
def execVfrnd (rm : BitVec 2) (f : U3) (s : State) : Out := vecUn s f (frnd32 (rmode rm))

/-- vfcvt (R179, R180). -/
def execVfcvt (sat : Bit) (rm : BitVec 2) (d a : Reg7) (dt st : BitVec 4) (s : State) : Out :=
  onRun s fun r =>
    let src : Nat → Nat := fun l =>
      if typeRegs st == 2 then (r.g.vreg2 a.toNat l).toNat else (r.g.vreg a.toNat l).toNat
    let cv : Nat → Nat := fun l => convert dt.toNat st.toNat (rmode rm) (sat.toNat == 1) r.ftz (src l)
    if typeRegs dt == 2 then r.vec64 s d fun l => BitVec.ofNat 64 (cv l)
    else r.vec32 s d fun l => BitVec.ofNat 32 (cv l)

/-- vfpack (R181). -/
def execVfpack (bf : Bit) (f : F3) (s : State) : Out := vecFp s f (fpack bf)

/-- vhadd2 (R182). -/
def execVhadd2 (bf : Bit) (f : F3) (s : State) : Out :=
  let fm := pairFmt bf
  vecFp s f fun z a b => halves fm z fun e => (half fm z a e).add .rne (half fm z b e)

/-- vhmul2 (R182). -/
def execVhmul2 (bf : Bit) (f : F3) (s : State) : Out :=
  let fm := pairFmt bf
  vecFp s f fun z a b => halves fm z fun e => (half fm z a e).mul (half fm z b e)

/-- vhfma2 (R182). -/
def execVhfma2 (bf : Bit) (f : F3) (s : State) : Out :=
  let fm := pairFmt bf
  onRun s fun r => r.vec32 s f.d fun l =>
    halves fm r.ftz fun e =>
      FVal.fma .rne (half fm r.ftz (r.a32 f l) e) (half fm r.ftz (r.b32 f l) e)
        (half fm r.ftz (r.g.vreg f.d.toNat l) e)

end Sys2Proof.Machine
end

