-- ==== Sys2Proof/Machine/Crypto.lean ====
section
/-!
DEFINITION. The algorithms that the manual names and does not spell out: SHA3-256, the verification of an ML-DSA-44 signature, and
AES-256-GCM (05_contexts.md R91, R101; 18_traps_dumps.md R381; 20_host_power.md R405). They are those of FIPS 202, FIPS 204, FIPS 197
and SP 800-38D, which the names mean (log 13).
-/
namespace Sys2Proof.Machine

/-! ### SHA3 (FIPS 202) -/

/-- A lane of the Keccak state, x + 5 y. -/
def kLane (a : List DWord) (x y : Nat) : DWord := a.getD (x % 5 + 5 * (y % 5)) 0

/-- A state from its lanes. -/
def kState (f : Nat → Nat → DWord) : List DWord := (List.range 25).map fun i => f (i % 5) (i / 5)

/-- Rotations of the lanes, by x + 5 y. -/
def keccakRot : List Nat :=
  [0, 1, 62, 28, 27, 36, 44, 6, 55, 20, 3, 10, 43, 25, 39, 41, 45, 15, 21, 8, 18, 2, 61, 56, 14]

/-- Round constants. -/
def keccakRound : List DWord :=
  [0x0000000000000001, 0x0000000000008082, 0x800000000000808A, 0x8000000080008000, 0x000000000000808B, 0x0000000080000001,
    0x8000000080008081, 0x8000000000008009, 0x000000000000008A, 0x0000000000000088, 0x0000000080008009, 0x000000008000000A]
  ++ [0x000000008000808B, 0x800000000000008B, 0x8000000000008089, 0x8000000000008003, 0x8000000000008002, 0x8000000000000080,
    0x000000000000800A, 0x800000008000000A, 0x8000000080008081, 0x8000000000008080, 0x0000000080000001, 0x8000000080008008]

/-- A round of Keccak. -/
def keccakStep (a : List DWord) (rc : DWord) : List DWord :=
  let col (x : Nat) : DWord := (List.range 5).foldl (fun c y => c ^^^ kLane a x y) 0
  let cols := (List.range 5).map col
  let theta := kState fun x y => kLane a x y ^^^ cols.getD ((x + 4) % 5) 0 ^^^ (cols.getD ((x + 1) % 5) 0).rotateLeft 1
  let rho := (theta.zip keccakRot).map fun e => e.1.rotateLeft e.2
  let pi := kState fun x y => kLane rho (x + 3 * y) x
  let chi := kState fun x y => kLane pi x y ^^^ (~~~(kLane pi (x + 1) y) &&& kLane pi (x + 2) y)
  chi.set 0 (chi.getD 0 0 ^^^ rc)

/-- The permutation of SHA3. -/
def keccak (a : List DWord) : List DWord := keccakRound.foldl keccakStep a

/-- A message padded to whole blocks, with the suffix of its function. -/
def keccakPad (rate : Nat) (suffix : Byte) (m : List Byte) : List Byte :=
  let n := rate - m.length % rate
  m ++ if n = 1 then [suffix ||| 0x80] else suffix :: (List.replicate (n - 2) 0 ++ [0x80])

/-- Blocks taken into a state. -/
def keccakTake (rate : Nat) : Nat → List DWord → List Byte → List DWord
  | 0, a, _ => a
  | n + 1, a, m =>
    let b := a.zipIdx.map fun e => e.1 ^^^ BitVec.ofNat 64 (leNat (((m.take rate).drop (8 * e.2)).take 8))
    keccakTake rate n (keccak b) (m.drop rate)

/-- Blocks given out of a state. -/
def keccakGive (rate : Nat) : Nat → List DWord → List Byte
  | 0, _ => []
  | n + 1, a => (a.flatMap fun w => leBytes 8 w.toNat).take rate ++ keccakGive rate n (keccak a)

/-- A sponge: `out` bytes for a message. -/
def sponge (rate : Nat) (suffix : Byte) (out : Nat) (m : List Byte) : List Byte :=
  let p := keccakPad rate suffix m
  (keccakGive rate (out / rate + 1) (keccakTake rate (p.length / rate) (List.replicate 25 0) p)).take out

/-- SHA3-256. -/
def sha3 (m : List Byte) : List Byte := sponge 136 0x06 32 m

/-- SHAKE128 and SHAKE256, a number of bytes of them. -/
def shake128 (out : Nat) (m : List Byte) : List Byte := sponge 168 0x1F out m
/-- SHAKE256, a number of bytes of it. -/
def shake256 (out : Nat) (m : List Byte) : List Byte := sponge 136 0x1F out m

/-! ### Verification of ML-DSA-44 (FIPS 204) -/

/-- The modulus. -/
def dsaQ : Nat := 8380417

/-- A polynomial of 256 coefficients below the modulus, or their transform. -/
abbrev Poly := List Nat

/-- Powers of the 512th root of unity 1753. -/
def dsaRoots : List Nat := (List.range 512).map fun e => 1753 ^ e % dsaQ

/-- The eight bits of a number in reverse. -/
def rev8 (n : Nat) : Nat := (List.range 8).foldl (fun r i => 2 * r + n / 2 ^ i % 2) 0

/-- The transform of a polynomial: its value at the odd powers of the root, in bit-reversed order. -/
def Poly.ntt (p : Poly) : Poly :=
  (List.range 256).map fun i =>
    (p.zipIdx.foldl (fun n e => n + e.1 * dsaRoots.getD ((2 * rev8 i + 1) * e.2 % 512) 0) 0) % dsaQ

/-- The polynomial of a transform; 8347681 is the inverse of 256. -/
def Poly.inverse (p : Poly) : Poly :=
  (List.range 256).map fun j =>
    (p.zipIdx.foldl (fun n e => n + e.1 * dsaRoots.getD ((512 - (2 * rev8 e.2 + 1) * j % 512) % 512) 0) 0) % dsaQ * 8347681 % dsaQ

/-- Coefficient by coefficient. -/
def Poly.with (f : Nat → Nat → Nat) (p q : Poly) : Poly := (p.zip q).map fun e => f e.1 e.2 % dsaQ

/-- A polynomial from 256 fields of `w` bits each, packed with the first lowest. -/
def unpackBits (w : Nat) (bs : List Byte) : Poly := (List.range 256).map fun i => leNat bs / 2 ^ (w * i) % 2 ^ w

/-- The entry in row r and column s of the matrix that a seed stands for: three bytes a candidate, those below the modulus are
kept. -/
def dsaEntry (seed : List Byte) (r s : Nat) : Poly :=
  let bs := shake128 1344 (seed ++ leBytes 1 s ++ leBytes 1 r)
  (((List.range 448).map fun i => leNat ((bs.drop (3 * i)).take 3) % 2 ^ 23).filter fun z => z < dsaQ).take 256

/-- Place 39 signs: for each i from 217 on, the next byte that is at most i says where it goes. -/
def dsaPlace (signs : Nat) : Nat → Nat → List Byte → Poly → Poly
  | 0, _, _, c => c
  | _ + 1, _, [], c => c
  | n + 1, i, b :: bs, c =>
    if 256 ≤ i then c
    else if i < b.toNat then dsaPlace signs n i bs c
    else dsaPlace signs n (i + 1) bs
      ((c.set i (c.getD b.toNat 0)).set b.toNat (if signs.testBit (i - 217) then dsaQ - 1 else 1))

/-- The challenge of a commitment hash. -/
def dsaChallenge (hash : List Byte) : Poly :=
  let bs := shake256 1024 hash
  dsaPlace (leNat (bs.take 8)) 1016 217 (bs.drop 8) (List.replicate 256 0)

/-- The places of one polynomial's hints: strictly rising. -/
def rising : List Byte → Bool
  | a :: b :: rest => a.toNat < b.toNat && rising (b :: rest)
  | _ => true

/-- The hints of a signature: 80 places, then where each of the four polynomials' ends; none where they are malformed. -/
def dsaHints (y : List Byte) : Option (List (List Nat)) :=
  let ends := (y.drop 80).map fun b => b.toNat
  let part (i : Nat) : List Byte :=
    (y.take (ends.getD i 0)).drop (if i = 0 then 0 else ends.getD (i - 1) 0)
  let ok := (List.range 4).all fun i =>
    (i = 0 || ends.getD (i - 1) 0 ≤ ends.getD i 0) && ends.getD i 0 ≤ 80 && rising (part i)
  if ok && ((y.take 80).drop (ends.getD 3 0)).all (· == 0) then
    some ((List.range 4).map fun i => (part i).map fun b => b.toNat)
  else none

/-- The high part of a coefficient under its hint: parts are 190464 wide, 44 of them. -/
def dsaUseHint (h : Bool) (r : Nat) : Nat :=
  let low := r % 190464
  let down := low ≤ 95232
  let top := if down then r - low else r - low + 190464
  let (r1, positive) := if top = dsaQ - 1 then (0, false) else (top / 190464, down && low != 0)
  if !h then r1 else if positive then (r1 + 1) % 44 else (r1 + 43) % 44

/-- Four polynomials of fields of `w` bits, one after another. -/
def dsaVector (w : Nat) (bs : List Byte) : List Poly :=
  (List.range 4).map fun i => unpackBits w ((bs.drop (32 * w * i)).take (32 * w))

/-- Verification of an ML-DSA-44 signature over a message, with no context string, under a public key. -/
def mldsaVerify (key msg sig : List Byte) : Bool :=
  if key.length != 1312 || sig.length != 2420 then false
  else
    match dsaHints (sig.drop 2336) with
    | none => false
    | some hints =>
      let seed := key.take 32
      let t := (dsaVector 10 (key.drop 32)).map fun p => Poly.ntt (p.map fun x => x * 8192 % dsaQ)
      let z := dsaVector 18 ((sig.drop 32).take 2304)
      let short := z.all fun p => p.all fun x => 78 < x && x < 262066
      let zs := z.map fun p => Poly.ntt (p.map fun x => (dsaQ + 131072 - x) % dsaQ)
      let mu := shake256 64 (shake256 64 key ++ [0, 0] ++ msg)
      let c := Poly.ntt (dsaChallenge (sig.take 32))
      let w := (List.range 4).map fun r =>
        let az := (List.range 4).foldl (fun a s => Poly.with (· + ·) a (Poly.with (· * ·) (dsaEntry seed r s) (zs.getD s [])))
          (List.replicate 256 0)
        Poly.inverse (Poly.with (fun a b => a + (dsaQ - b)) az (Poly.with (· * ·) c (t.getD r [])))
      let high := (List.range 4).map fun r =>
        (w.getD r []).zipIdx.map fun e => dsaUseHint ((hints.getD r []).contains e.2) e.1
      let packed := high.flatMap fun p => leBytes 192 (p.zipIdx.foldl (fun n e => n + e.1 * 2 ^ (6 * e.2)) 0)
      short && shake256 32 (mu ++ packed) == sig.take 32

/-! ### AES-256-GCM (FIPS 197, SP 800-38D) -/

/-- Twice a byte in the field of AES. -/
def aesTwice (a : Byte) : Byte := (a <<< 1) ^^^ (if a.getLsbD 7 then 0x1B else 0)

/-- The product of two bytes in the field of AES. -/
def aesMul (a b : Byte) : Byte :=
  ((List.range 8).foldl (fun (p : Byte × Byte) i => (if b.getLsbD i then p.1 ^^^ p.2 else p.1, aesTwice p.2)) (0, a)).1

/-- The inverse of a byte in the field of AES, 0 for 0: its 254th power. -/
def aesInverse (a : Byte) : Byte := (List.range 253).foldl (fun p _ => aesMul p a) a

/-- The S-box of a byte. -/
def aesSub (a : Byte) : Byte :=
  let b := aesInverse a
  b ^^^ b.rotateLeft 1 ^^^ b.rotateLeft 2 ^^^ b.rotateLeft 3 ^^^ b.rotateLeft 4 ^^^ 0x63

/-- Byte strings combined by exclusive or. -/
def xorBytes (a b : List Byte) : List Byte := (a.zip b).map fun e => e.1 ^^^ e.2

/-- The key schedule: `n` words after word `i`, of which the last eight are given, the newest first. -/
def aesWords : Nat → Nat → Byte → List (List Byte) → List (List Byte)
  | 0, _, _, ws => ws
  | n + 1, i, rc, ws =>
    let last := ws.headD []
    let t :=
      if i % 8 = 0 then xorBytes ((last.rotateLeft 1).map aesSub) [rc, 0, 0, 0]
      else if i % 8 = 4 then last.map aesSub
      else last
    aesWords n (i + 1) (if i % 8 = 0 then aesTwice rc else rc) (xorBytes (ws.getD 7 []) t :: ws)

/-- The fifteen round keys of a key. -/
def aesKeys (key : List Byte) : List (List Byte) :=
  let ws := (aesWords 52 8 1 ((List.range 8).map fun i => (key.drop (4 * (7 - i))).take 4)).reverse
  (List.range 15).map fun r => ((ws.drop (4 * r)).take 4).flatten

/-- Bytes of a block with each row shifted. -/
def aesShift (b : List Byte) : List Byte := (List.range 16).map fun i => b.getD ((i + 4 * (i % 4)) % 16) 0

/-- The columns of a block mixed. -/
def aesMix (b : List Byte) : List Byte :=
  (List.range 16).map fun i =>
    let x (k : Nat) : Byte := b.getD (i / 4 * 4 + (i + k) % 4) 0
    aesTwice (x 0) ^^^ aesTwice (x 1) ^^^ x 1 ^^^ x 2 ^^^ x 3

/-- A block enciphered under round keys. -/
def aesBlock (ks : List (List Byte)) (b : List Byte) : List Byte :=
  let first := xorBytes b (ks.headD [])
  let b13 := ((ks.drop 1).take 13).foldl (fun b k => xorBytes (aesMix (aesShift (b.map aesSub))) k) first
  xorBytes (aesShift (b13.map aesSub)) (ks.getD 14 [])

/-- A byte string as a number, first byte highest. -/
def beNat (bs : List Byte) : Nat := bs.foldl (fun n b => 256 * n + b.toNat) 0

/-- The low n bytes of a number, highest first. -/
def beBytes (n v : Nat) : List Byte := (leBytes n v).reverse

/-- The product of two blocks in the field of GCM, whose first bit is the lowest power. -/
def gcmMul (x y : BitVec 128) : BitVec 128 :=
  ((List.range 128).foldl (fun (p : BitVec 128 × BitVec 128) i =>
    (if x.getMsbD i then p.1 ^^^ p.2 else p.1,
      (p.2 >>> 1) ^^^ (if p.2.getLsbD 0 then 0xE1000000000000000000000000000000#128 else 0))) (0, y)).1

/-- A byte string cut into blocks of 16, the last filled with zeros. -/
def gcmBlocks (bs : List Byte) : List (BitVec 128) :=
  (List.range ((bs.length + 15) / 16)).map fun i =>
    BitVec.ofNat 128 (beNat ((List.range 16).map fun j => bs.getD (16 * i + j) 0))

/-- The hash of additional data and cipher text under a key. -/
def ghash (h : BitVec 128) (aad cipher : List Byte) : BitVec 128 :=
  (gcmBlocks aad ++ gcmBlocks cipher ++ [BitVec.ofNat 128 (8 * aad.length * 2 ^ 64 + 8 * cipher.length)]).foldl
    (fun y b => gcmMul (y ^^^ b) h) 0

/-- A byte string combined with the key stream that begins at a counter block. -/
def gcmStream (ks : List (List Byte)) (iv bs : List Byte) : List Byte :=
  (List.range ((bs.length + 15) / 16)).flatMap fun i =>
    xorBytes ((bs.drop (16 * i)).take 16) (aesBlock ks (iv ++ beBytes 4 (i + 2)))

/-- The tag of additional data and cipher text. -/
def gcmTag (ks : List (List Byte)) (iv aad cipher : List Byte) : List Byte :=
  let h := BitVec.ofNat 128 (beNat (aesBlock ks (List.replicate 16 0)))
  xorBytes (beBytes 16 (ghash h aad cipher).toNat) (aesBlock ks (iv ++ beBytes 4 1))

/-- The bytes of a 256-bit key, highest first. -/
def keyBytes (key : BitVec 256) : List Byte := beBytes 32 key.toNat

/-- AES-256-GCM under a key and an IV of 96 bits: cipher text, then the tag of 16 bytes. -/
def gcmSeal (key : BitVec 256) (iv : BitVec 96) (aad plain : List Byte) : List Byte :=
  let ks := aesKeys (keyBytes key)
  let n := beBytes 12 iv.toNat
  let c := gcmStream ks n plain
  c ++ gcmTag ks n aad c

/-- Its inverse on cipher text and tag: none where the tag does not verify. -/
def gcmOpen (key : BitVec 256) (iv : BitVec 96) (aad sealedBytes : List Byte) : Option (List Byte) :=
  let ks := aesKeys (keyBytes key)
  let n := beBytes 12 iv.toNat
  let c := sealedBytes.take (sealedBytes.length - 16)
  if gcmTag ks n aad c == sealedBytes.drop (sealedBytes.length - 16) then some (gcmStream ks n c) else none

end Sys2Proof.Machine
end

