-- ==== Sys2Proof/Machine/Hoops.lean ====
section
/-!
DEFINITION. Teams at entry and restart (02_encoding.md R46; 17_hoops_versions.md R360), hoops, wounds, versions, commit and
the irrevocable token (R353 to R373; 11_memory_model.md R244, R245), and the four hoop instructions.
-/
namespace Sys2Proof.Machine

/-! ### Entry (R46, R133) -/

/-- The roles of a kernel's groups, by group number (R133). -/
def Kernel.rolesOf (k : Kernel) : List Nat :=
  (List.range (k.field 367 366 + 1)).flatMap fun r => List.replicate (roleGroups k.rcd r) r

/-- Teams of a kernel's grid (R115). -/
def Kernel.teamsOf (k : Kernel) : Nat := (k.field 287 256 + 1) * (k.field 319 288 + 1) * (k.field 351 320 + 1)

/-- A group at entry (R46): one READY split at the first clause, registers zero but for s0 to s3. -/
def Kernel.freshGroup (k : Kernel) (tid lid core num slot : Nat) : Group :=
  { team := tid, core := core, grp := num, role := k.rolesOf.getD num 0, slot := slot, extraSlot := false, st := .live,
    v := [],
    s := sset 0 (sset 0 (sset 0 (sset 0 [] 3 (BitVec.ofNat 64 (k.field 191 128))) 2 (BitVec.ofNat 64 k.teamsOf)) 1
      (BitVec.ofNat 64 lid)) 0 (BitVec.ofNat 64 (k.field 127 64)),
    fmode := 0, tid := (List.range 32).map (32 * num + ·), holds := BitVec.allOnes 32, dc := [0, 0, 0, 0, 0, 0],
    splits := [{ Split.empty with st := .ready, pc := k.field 63 0, mask := BitVec.allOnes 32 }, Split.empty, Split.empty,
      Split.empty],
    run := none, last := 3, faulted := 0, causes := [], ended := 0, spilled := 0, marked := 0, markedSlot := 0,
    markedPages := [], saved := 0, batchL := 0, batchOpen := none, batches := [], score := 0, toLoad := [],
    dbgHeld := false, faultSince := none, asyncTraps := [], pendStops := [], elig := none, idleTo := 0, yieldTo := 0,
    memOk := none, fetching := false }

/-- The groups of a team start at its entry in the slots given, lowest group first; the window is zero-filled, and the
barrier entries, handles and bank names are as at entry (R46, R360); each group writes a PLACE record (R387). -/
def State.enterTeam (s : State) (tid : Nat) (slots : List Nat) (aux : Nat) : State :=
  match dget s.teams tid with
  | none => s
  | some t =>
    match dget s.kernels t.kernel with
    | none => s
    | some k =>
      let s0 := { s with groups := s.groups.filter fun e => e.2.team != tid,
                         mem := s.mem.zero (scratchKey t.core t.wbase) t.wsize }
      let s1 := (slots.zipIdx).foldl (fun s (slot, n) =>
        let s' := { s.bump with groups := dset s.groups s.nextId (k.freshGroup tid t.lid t.core n slot) }
        s'.trace t.core t.asid 10 slot aux (t.lid * 2 ^ 32 + n * 2 ^ 26)) s0
      s1.modTeam tid fun t =>
        { t with
          st := .running, barriers := [], handles := [], banks := List.replicate 8 .unbound, passes := 0,
          ver := Version.fresh, waitSince := none, windowSaved := [], windowIn := true, startedAt := s.pk.gts, cores := [t.core] }

/-! ### Banks (R312, R314) -/

/-- An OWNED bank of a team is ZEROING once it has no work (R312); its place in a reservation is kept or not. -/
def Bank.letGo (b : Bank) (keep : Bool) : Bank :=
  match b.st with
  | .owned => { b with st := .zeroing, kept := b.kept && keep }
  | .zeroing => { b with kept := b.kept && keep }
  | .reserved => if keep then b else Bank.reset
  | .free => b

/-- A team lets its banks go: at a wound its reservation is kept, at retirement not (R312, R360). -/
def State.releaseBanks (s : State) (tid : Nat) (keep : Bool) : State :=
  match dget s.teams tid with
  | none => s
  | some t =>
    let q := islandOf t.core
    let l := s.loom q
    let back := if keep then (t.banks.filter fun n =>
        match n with
        | .evicted _ _ k => k
        | _ => false).length else 0
    let l1 := { l with banks := l.banks.map fun e => if e.2.team == tid then (e.1, e.2.letGo keep) else e }
    { s with looms := dset s.looms q l1 }.modTeam tid fun t =>
      { t with banks := List.replicate 8 .unbound, recorded := if keep then t.recorded + back else 0 }

/-! ### Work in flight is dropped (R359, R308, R333) -/

/-- Everything a team has in flight is dropped: it leaves the queues it stands in, the porter, and the loom (R359). -/
def State.dropWork (s : State) (tid : Nat) : State :=
  let mine (r : Nat × Nat) : Bool := s.refOf r == some tid
  let keepRefs (l : List (Nat × Nat)) : List (Nat × Nat) := l.filter fun r => !mine r
  let keepWaits (l : List Waiter) : List Waiter := l.filter fun w =>
    match w with
    | .touch op i => !mine (op, i)
    | _ => true
  let gone := (s.opsOf tid).map Prod.fst
  let s1 : State := { s with
    slices := s.slices.map fun e =>
      (e.1, { hoops := e.2.hoops.map (fun h => { h with held := keepRefs h.held }), starved := keepRefs e.2.starved,
              counted := keepRefs e.2.counted })
    ctxs := s.ctxs.map fun e =>
      (e.1, { e.2 with pages := e.2.pages.map fun q => (q.1, { q.2 with hold := keepWaits q.2.hold, waiters := keepWaits q.2.waiters }) })
    cores := s.cores.map fun e =>
      (e.1, { e.2 with
        porter := e.2.porter.filter fun p => p.team != tid
        streams := e.2.streams.filter fun x => x.2.team != tid })
    looms := s.looms.map fun e => (e.1, { e.2 with queue := e.2.queue.filter fun q => q.team != tid })
    flight := s.flight.filter fun e => e.2.team != tid }
  gone.foldl State.wakeFences s1

/-- The bins of a team are emptied (R137, R138). -/
def State.dropBins (s : State) (tid : Nat) : State :=
  { s with cores := s.cores.map fun e => (e.1, { e.2 with bins := e.2.bins.filter fun b => b.2.team != tid }) }

/-! ### Release of hoops (R356, R359) -/

/-- The hoops a team holds are on their way to be released, slice by slice. -/
def State.freeHoops (s : State) (tid : Nat) : State :=
  let n := (s.slices.filter fun e => e.2.hoops.any fun h => h.team == tid).length
  let go (x : Slice) : Slice :=
    { x with hoops := x.hoops.map fun h => if h.team == tid then { h with leaving := true } else h }
  ({ s with slices := s.slices.map fun e => (e.1, go e.2) } : State).modTeam tid fun t => { t with releases := n }

/-- The virtual address a waitc reads, of a split that waits in it. -/
def State.waitcAt (s : State) (gid slot : Nat) : Option Nat :=
  (dget s.groups gid).bind fun g =>
    match (g.split slot).st with
    | .blocked (.waitc _ va _ _) => some va
    | _ => none

/-- A touch that was held meets its granule afresh (R356). -/
def State.retouch (s : State) (r : Nat × Nat) : State :=
  if 2 ^ 60 ≤ r.1 then
    let gid := r.1 - 2 ^ 60
    match s.waitcAt gid r.2, s.refOf r with
    | some va, some tid =>
      match dget s.teams tid with
      | some t =>
        match s.touchAll tid t r [va] with
        | .served s1 => s1
        | .held s1 => s1
      | none => s
    | _, _ => s
  else s.sliceAccess r.1 r.2

/-- The team that gets a granule which has become FREE, of those whose touches are held: the token holder, otherwise the oldest
(R356). -/
def State.bestWaiter (s : State) (rs : List (Nat × Nat)) : Option (Nat × Team) :=
  let teams := rs.filterMap fun r => (s.refOf r).bind fun tid => (dget s.teams tid).map fun t => (tid, t)
  teams.foldl (fun b e =>
    match b with
    | none => some e
    | some x => if s.outranks e x then some e else some x) none

/-- A granule that has become FREE is at once HELD by a waiting team, in the entry it had: the state, and the touches that waited, the
new holder's first (R356). -/
def State.passGranule (s : State) (slice : Nat) (h : Hoop) : State × List (Nat × Nat) :=
  match s.bestWaiter h.held with
  | none => (s, [])
  | some (tid, t) =>
    let bytes := ((s.regionAt h.asid h.va).map fun e => e.2.granule).getD 64
    (s.grantHoop slice h.asid h.va bytes tid t h.inOverflow,
      h.held.filter (fun r => s.refOf r == some tid) ++ h.held.filter fun r => (s.refOf r).isSome && s.refOf r != some tid)

/-- Granules that have become FREE together pass on together; then the touches that waited are served, or meet the new holders
(R356). -/
def State.passGranules (s : State) (slice : Nat) (freed : List Hoop) : State :=
  let r := freed.foldl (fun (x : State × List (Nat × Nat)) h =>
    let y := x.1.passGranule slice h
    (y.1, x.2 ++ y.2)) (s, [])
  r.2.foldl State.retouch r.1

/-- Entries of the overflow table move back into a slice as far as it has room: the state, and the contexts of the entries
(R357). -/
def State.moveBack (s : State) (slice : Nat) : State × List Nat :=
  let x := s.slice slice
  let room := 32768 - (x.hoops.filter fun h => !h.inOverflow).length
  let back := (x.hoops.filter fun h => h.inOverflow).take room
  let go (h : Hoop) : Hoop :=
    if back.any fun b => b.asid == h.asid && b.va == h.va then { h with inOverflow := false } else h
  ({ s with slices := dset s.slices slice { x with hoops := x.hoops.map go } }, back.map Hoop.asid)

/-- Touches held at a slice for want of an entry are tried again, those of the teams for which a test holds; ARENA_WAIT counts none
of them a second time (R357). -/
def State.retryStarved (s : State) (slice : Nat) (p : Nat → Bool) : State :=
  let x := s.slice slice
  let mine := x.starved.filter fun r => ((s.refOf r).map p).getD true
  let s1 : State := { s with slices := dset s.slices slice { x with starved := x.starved.filter fun r => !mine.contains r } }
  let s2 := mine.foldl State.retouch s1
  let y := s2.slice slice
  { s2 with slices := dset s2.slices slice { y with counted := y.counted.filter y.starved.contains } }

/-- HOOP_RELEASE_ARRIVAL: the release of one team's granules reaches a slice: they are FREE there and pass to those that
wait, overflow entries move back, and touches held for want of an entry are tried again, also those that wait at another slice for
room in the arena (R356, R357, R359). -/
def execHoopReleaseArrival (slice : Nat) (s : State) : Out :=
  let x := s.slice slice
  match x.hoops.find? fun h => h.leaving with
  | none => .refused .notEnabled
  | some h0 =>
    let freed := x.hoops.filter fun h => h.leaving && h.team == h0.team
    let rest := x.hoops.filter fun h => !(h.leaving && h.team == h0.team)
    let s1 := { s with slices := dset s.slices slice { x with hoops := rest } }.modTeam h0.team fun t =>
      { t with releases := t.releases - 1 }
    let (s2, back) := (s1.passGranules slice freed).moveBack slice
    let asids := back ++ (freed.filter Hoop.inOverflow).map Hoop.asid
    let inArena (tid : Nat) : Bool := ((dget s2.teams tid).map fun t => asids.contains t.asid).getD false
    let s3 := s2.retryStarved slice fun _ => true
    .next (s3.slices.foldl (fun s e => if e.1 == slice then s else s.retryStarved e.1 inArena) s3)

/-! ### Discard (R359, R363) -/

/-- A version is discarded: its immediate chandler operations are undone, the latest issued first, everything else in it is dropped
(R347, R359). -/
def State.discardVersion (s : State) (tid : Nat) : State :=
  match dget s.teams tid with
  | none => s
  | some t =>
    if t.ver.st == .committed || !t.versioned then s
    else
      let s1 := t.ver.undo.foldl (fun s i => (s.chandlerOp t.asid t.core i.op i.args).1) s
      s1.modTeam tid fun t => { t with ver := { Version.fresh with st := .discarded } }

/-- What a wound takes from a team away from its core, at once: version, hoops and banks (R137, R100). -/
def State.woundAway (s : State) (tid : Nat) : State :=
  let s1 := (((s.dropWork tid).dropBins tid).discardVersion tid).freeHoops tid
  (s1.releaseBanks tid true).modTeam tid fun t =>
    { t with
      restartDue := true, handles := []
      barriers := t.barriers.map fun e => (e.1, { Barrier.unarmed with spilled := e.2.spilled, touched := e.2.touched }) }

/-- WOUND_ARRIVAL: a wound reaches the core of its team. A running team's groups stop and its work in flight is dropped;
a team that is away loses its version, hoops and banks at once; any other meets no effect (R137, R138, R358, R359). -/
def execWoundArrival (team : Nat) (s : State) : Out :=
  match dget s.teams team with
  | none => .refused .notEnabled
  | some t =>
    match t.wounds with
    | [] => .refused .notEnabled
    | (aux, age) :: rest =>
      let s1 := s.modTeam team fun t => { t with wounds := rest }
      let struck (s : State) : State :=
        (s.modTeam team fun t => { t with ver := { t.ver with tokenWait := false } }).trace t.core t.asid 7 61 aux age.toNat
      if t.ver.irrevocable || s.pk.tokenHolder == some team then .next s1
      else if t.st == .running then
        let s2 := (struck s1).modTeam team fun t => { t with st := .wounded }
        let s3 := ((s2.dropWork team).dropBins team).dropTokens team
        .next { s3 with groups := s3.groups.map fun e =>
          if e.2.team = team then (e.1, { e.2 with run := none, asyncTraps := [], pendStops := [] }) else e }
      else if t.st == .preempted || t.st == .swapped then .next ((struck s1).woundAway team)
      else .next s1

/-- VERSION_DISCARD_DONE: the version of a wounded team is gone, its hoops are on their way to be released and its banks
are let go (R359, R363). -/
def execVersionDiscardDone (team : Nat) (s : State) : Out :=
  match dget s.teams team with
  | some t =>
    if t.st == .wounded && t.ver.st != .discarded then
      .next (((s.discardVersion team).freeHoops team).releaseBanks team true)
    else .refused .notEnabled
  | none => .refused .notEnabled

/-- The group slots a team keeps, in order, those of choice 2 of R148 left out. -/
def State.ownSlots (s : State) (tid : Nat) : List Nat :=
  let gs := s.groupsOf tid
  (List.range 48).filter fun n => gs.any fun e => e.2.slot == n && !e.2.extraSlot && e.2.st != .stoodDown

/-- The slots a restarting team starts its groups in: those it keeps, and where a slot of an ENDED group has been given up at a
resumption (R148, R159), free slots in its place, the lowest first. -/
def State.restartSlots (s : State) (tid : Nat) (t : Team) : List Nat :=
  let own := s.ownSlots tid
  let others : State := { s with groups := s.groups.filter fun e => e.2.team != tid }
  (own ++ (others.slotsFree t.core).filter fun n => !own.contains n).take (((dget s.kernels t.kernel).map fun k => k.field 364 360 + 1).getD 0)

/-- TEAM_RESTART: a wounded team starts again at its entry with all its groups, on the same core and window, once every release has
reached its slice (R46, R137, R359, R360); where its core lacks a slot for one of them it waits (log 54). %restarts stays at
2^32 − 1 (R28, R360). -/
def execTeamRestart (team : Nat) (s : State) : Out :=
  match dget s.teams team, (dget s.teams team).bind fun t => dget s.kernels t.kernel with
  | some t, some k =>
    let slots := s.restartSlots team t
    if t.st == .wounded && t.ver.st == .discarded && t.releases == 0 && slots.length == k.field 364 360 + 1 then
      let s1 := s.modTeam team fun t => { t with restarts := min (t.restarts + 1) (2 ^ 32 - 1) }
      .next (s1.enterTeam team slots 1)
    else .refused .notEnabled
  | _, _ => .refused .notEnabled

/-! ### Commit (R245, R112, R131, R347) -/

/-- A record is lost at commit: a LOST record in the core's ring (R387). -/
def State.traceLost (s : State) (t : Team) (aux op tag : Nat) : State :=
  s.trace t.core t.asid 11 61 aux (op * 2 ^ 32 + tag)

/-- A held enq enters its queue, or is dropped and counted, with the opcode of its raw word (R112, R387): whether it entered. -/
def State.commitEnq (s : State) (t : Team) (qid : Nat) (h : HeldRec) : State × Bool :=
  match s.enqueue t.asid qid h.rcd with
  | (0, s1) => (s1, true)
  | _ => ((s.modCtx t.asid fun c => { c with enqLost := c.enqLost + 1 }).traceLost t 0 h.raw (ktagOf h.rcd), false)

/-- The sectors of a version become committed data, as writes of its core (R245, R230). -/
def State.commitSectors (s : State) (tid : Nat) (t : Team) : State :=
  t.ver.sectors.foldl (fun s x =>
    match (dget s.ctxs x.asid).bind fun c => c.pageAt x.va with
    | none => s
    | some (b, p) =>
      let s1 := (s.touchSector (clusterOf t.core) x.asid x.va p (p.key b x.va) true ⟨true, false⟩ (s.grantOf t.asid x.va tid)).reach
        x.asid b
      x.bytes.foldl (fun s e =>
        { s with mem := s.mem.write (p.key b e.1) e.2 }.storeL1 t.core x.asid e.1 [e.2]) s1) s

/-- A held chandler operation is performed afresh; one that is not OK then is counted (R347). -/
def State.commitChandler (s : State) (t : Team) (i : ChandlerItem) : State :=
  let r := s.chandlerOp t.asid t.core i.op i.args
  if statusOf r.2 = 0 then r.1
  else (s.modCtx t.asid fun c => { c with skeinLost := c.skeinLost + 1 }).traceLost t 1 i.raw 0

/-- THE COMMIT POINT of a team's version: held enqs, then the writes, then held launches and chandler operations; one
LAUNCH record per held instruction (R245, R112, R131, R347, R387). -/
def State.commit (s : State) (tid : Nat) : State :=
  match dget s.teams tid with
  | none => s
  | some t =>
    let enqs := t.ver.recs.filter fun h => h.queue.isSome
    let (s1, lost) := enqs.foldl (fun (x : State × List (Nat × Nat)) h =>
      let r := x.1.commitEnq t (h.queue.getD 0) h
      (r.1, if r.2 then x.2 else x.2 ++ [(h.inst, h.lane)])) (s, [])
    let s2 := s1.commitSectors tid t
    let s3 := s2.modTeam tid fun t =>
      { t with
        pendLate := t.pendLate ++ (t.ver.recs.filter fun h => h.queue.isNone).map HeldRec.rcd
        ver := { Version.fresh with st := .committed, tokenWait := false } }
    let s4 := s3.enterLate tid
    let insts := (t.ver.recs.map HeldRec.inst).eraseDups
    let s5 := insts.foldl (fun s n =>
      let rs := t.ver.recs.filter fun h => h.inst == n
      let ok := rs.filter fun h => !lost.contains (n, h.lane)
      match ok with
      | [] => s
      | h :: _ =>
        s.trace t.core t.asid 6 61 (if h.queue.isSome then 1 else 0)
          (ktagOf h.rcd * 2 ^ 32 + ok.length)) s4
    t.ver.helds.foldl (fun s i => s.commitChandler t i) s5

/-- The version of a team may become committed data now: none of its pages is being copied, whose writes would be held (R263, log 46),
and no acquire of another team that has been passed could read from it (R245, R247, log 50). -/
def State.commitClear (s : State) (tid : Nat) : Bool :=
  match dget s.teams tid with
  | none => true
  | some t =>
    let here := t.ver.sectors.map fun x => (2 ^ 128 + x.asid * 2 ^ 64 + x.va, 64)
    let moving (x : VSector) : Bool := (((dget s.ctxs x.asid).bind fun c => c.pageAt x.va).map fun e => e.2.st == .migrating).getD false
    !t.ver.sectors.any moving && s.flight.all fun e =>
      e.2.passed.isNone || e.2.team == tid ||
        match e.2.work, dget s.teams e.2.team with
        | .mem m, some t' => m.units.all fun v => !(v.waits && v.st != .held && rangesMeet here (s.placesOf t' m v))
        | _, _ => true

/-- COMMIT_POINT: the work of a committing team is over, its version commits and its hoops are on their way to be released
(R245, R363). -/
def execCommitPoint (team : Nat) (s : State) : Out :=
  match dget s.teams team with
  | some t =>
    if t.st == .committing && t.ver.st == .committing && (s.opsOf team).isEmpty && s.inOrder team && s.commitClear team
        && (s.groupsOf team).all fun e => e.2.batches.isEmpty && e.2.asyncTraps.isEmpty && e.2.pendStops.isEmpty then
      .next ((s.commit team).freeHoops team)
    else .refused .notEnabled
  | none => .refused .notEnabled

/-! ### The irrevocable token (R364) -/

/-- The oldest team whose request for the token waits, of those that have not been wounded or stopped (R364). -/
def State.oldestAsk (s : State) : Option Nat :=
  ((s.teams.filter fun e => e.2.ver.tokenWait && e.2.st != .halting && e.2.st != .retired && e.2.st != .wounded).foldl
    (fun (b : Option (Nat × Team)) e =>
      match b with
      | none => some e
      | some x => if e.2.age.toNat < x.2.age.toNat then some e else some x) none).map Prod.fst

/-- The token has been received by a team, and its grant is still to be carried out: its groups have stopped (R364). -/
def State.granting (s : State) (tid : Nat) (t : Team) : Bool := s.pk.tokenHolder == some tid && !t.ver.irrevocable

/-- The token of a team that retires frees, and goes at once to the oldest request (R364). -/
def State.passToken (s : State) (tid : Nat) : State :=
  if s.pk.tokenHolder == some tid then
    match s.oldestAsk with
    | some y => s.receiveToken y
    | none => { s with pk := { s.pk with tokenHolder := none } }
  else s

/-! ### The hoop instructions (R366 to R371) -/

/-- A status result (R366). -/
def hoopStatus (st v : Nat) : DWord := statusWord st v

/-- asdecl (R368): operands are captured, and it is a release of the group's earlier accesses. -/
def execAsdecl (f : Ch3) (s : State) : Out :=
  onRun s fun r =>
    if r.full (dcOf f.dc) then r.stall s
    else
      let b := r.sx f.b
      .next (r.issueOp s r.g .asdecl (dcOf f.dc) (s.covered r.gid)
        (.asdecl r.t.forming (r.sx f.a).toNat (b.extractLsb' 0 56).toNat (b.extractLsb' 56 8).toNat) [] [(f.d.toNat, 0)])

/-- The base, size and granule class keep R353; `g` holds the reserved bits above the class. -/
def regionOk (base size g : Nat) : Bool :=
  let n := 2 ^ (6 + g)
  g < 16 && canonical base && base % n == 0 && size != 0 && size % n == 0 && size ≤ 2 ^ 56 - n

/-- A range overlaps a declared region or an attached range (R354). -/
def Ctx.regionMeets (c : Ctx) (base size : Nat) : Bool :=
  c.regions.any (fun e => base < e.2.base + e.2.size && e.2.base < base + size)
  || c.attach.any fun a => base < a.base + a.size && a.base < base + size

/-- The status of an asdecl, issued in a version or not (R367, R368). -/
def Ctx.asdeclStatus (c : Ctx) (inVersion : Bool) (base size g : Nat) : Nat :=
  if inVersion then 4
  else if !regionOk base size g then 1
  else if c.regionMeets base size then 2
  else if 64 ≤ c.regions.length then 3
  else 0

/-- Some version holds sectors in a range of a context (R368). -/
def State.versionIn (s : State) (asid base size : Nat) : Bool :=
  s.teams.any fun e => e.2.ver.sectors.any fun x => x.asid == asid && x.va < base + size && base < x.va + 64

/-- ASDECL_DECLARE: the checks of an asdecl, and, once no version holds sectors in the range, its entry (R368). -/
def execAsdeclDeclare (op : Nat) (s : State) : Out :=
  match dget s.flight op with
  | none => .refused .notEnabled
  | some o =>
    match o.work, dget s.teams o.team with
    | .asdecl inVersion base size g, some t =>
      match dget s.ctxs t.asid with
      | none => .refused .notEnabled
      | some c =>
        let st := c.asdeclStatus inVersion base size g
        if !(o.waits.all s.performed) then .refused .notEnabled
        else if st != 0 then .next (s.retireScalar op o (hoopStatus st 0))
        else if s.versionIn t.asid base size then .refused .notEnabled
        else
          let i := ((List.range 64).find? fun n => (dget c.regions n).isNone).getD 0
          .next ((s.modCtx t.asid fun c => { c with regions := dset c.regions i ⟨base, size, g⟩ }).retireScalar op o
            (hoopStatus 0 i))
    | _, _ => .refused .notEnabled

/-- A granule of a region is HELD or WOUNDING (R369). -/
def State.regionBusy (s : State) (asid : Nat) (r : Region) : Bool :=
  s.slices.any fun e => e.2.hoops.any fun h => h.asid == asid && r.base ≤ h.va && h.va < r.base + r.size

/-- asdrop (R369). -/
def execAsdrop (f : Ch) (s : State) : Out :=
  onRun s fun r =>
    if r.full (dcOf f.dc) then r.stall s
    else
      let i := (r.sx f.a).toNat % 64
      let out (s : State) (st : Nat) : Out := r.later s .short f.dc [] [(f.d.toNat, hoopStatus st 0)]
      if r.t.versioned && !r.t.ver.irrevocable then out s 4
      else
        match (dget s.ctxs r.t.asid).bind fun c => dget c.regions i with
        | none => out s 6
        | some rg =>
          if s.regionBusy r.t.asid rg then out s 5
          else out (s.modCtx r.t.asid fun c => { c with regions := ddel c.regions i }) 0

/-- The result word of asqry (R370). -/
def asqryWord (hold g index : Nat) : DWord := BitVec.ofNat 64 (hold * 2 ^ 54 + g * 2 ^ 50 + index)

/-- asqry (R370). -/
def execAsqry (f : Ch) (s : State) : Out :=
  onRun s fun r =>
    let va := (r.sx f.a).toNat
    let ans : Nat × DWord :=
      match s.regionAt r.t.asid va with
      | none => (0, asqryWord 0 0 0)
      | some (i, rg) =>
        let gb := rg.granuleBase va
        let hold := match (s.slice (homeOf r.t.asid gb)).hoop r.t.asid gb with
          | none => 1
          | some h => if h.team == r.tid then 2 else 3
        (gb, asqryWord hold rg.g i)
    r.later s .short f.dc [] [(f.d.toNat, BitVec.ofNat 64 ans.1), (f.d.toNat + 1, ans.2)]

/-- Granules a team holds. -/
def State.hoopsOf (s : State) (tid : Nat) : Nat :=
  s.slices.foldl (fun n e => n + (e.2.hoops.filter fun h => h.team == tid).length) 0

/-- vstat (R371). -/
def execVstat (d : SReg) (dc : DcField) (s : State) : Out :=
  onRun s fun r =>
    let v := r.t.ver
    let w := if r.t.versioned then
        (if v.irrevocable then 2 ^ 63 else 0) + (if v.tokenWait then 2 ^ 62 else 0)
          + min (s.hoopsOf r.tid) 0xFFFFFF * 2 ^ 32 + v.used
      else 0
    r.later s .short dc [] [(d.toNat, BitVec.ofNat 64 w)]

end Sys2Proof.Machine
end

