-- ==== Sys2Proof/Machine/Pages.lean ====
section
/-!
DEFINITION. Pages on the move (12_pages.md): frames, the cleaning of caches, fault records through sieve and riddle (R258 to
R261), promotion, migration and eviction (R255, R263 to R268), and the accesses that the device makes itself for inbound link
requests and transfers (R396, R403).
-/
namespace Sys2Proof.Machine

/-! ### Frames (R250, R270, R422) -/

/-- Copy bytes of storage; the target is zero where the source is. -/
def Memory.copy (m : Memory) (src dst n : Nat) : Memory :=
  (m.filter fun c => src ≤ c.1 && c.1 < src + n).foldl (fun m c => m.write (dst + (c.1 - src)) c.2) (m.zero dst n)

/-- The link port of a page's slow tier (R255). -/
def Page.slowPort (p : Page) : Option Nat :=
  match p.loc with
  | .slow _ port => some port
  | _ => none

/-- The frames a page holds: storage address, bytes and mask set. -/
def Page.frames (p : Page) : List (Nat × Nat × Nat) :=
  match p.st with
  | .resident => [(p.frame, p.bytes, p.mset)]
  | .sealed => [(p.frame, p.bytes, p.mset)]
  | .evicting => [(p.frame, p.bytes, p.mset)]
  | .migrating => [(p.frame, p.bytes, p.mset), (p.newFrame, p.bytes, p.newMset)]
  | .promoting => [(p.newFrame, p.bytes, p.mset)]
  | .remote => []
  | .faulting => []

/-- Every frame in use. -/
def State.frames (s : State) : List (Nat × Nat × Nat) := s.ctxs.flatMap fun e => e.2.pages.flatMap fun q => q.2.frames

/-- A frame may be placed beside those in use: it overlaps none, and shares no 8 KiB block with one of another mask set
(R270). -/
def frameFits (used : List (Nat × Nat × Nat)) (f bytes mset : Nat) : Bool :=
  used.all fun (g, n, m) =>
    (f + bytes ≤ g || g + n ≤ f) && (m == mset || (f + bytes - 1) / 8192 < g / 8192 || (g + n - 1) / 8192 < f / 8192)

/-- Search the n frames of a stack, round from frame number i. -/
def searchFrame (used : List (Nat × Nat × Nat)) (base bytes mset n : Nat) : Nat → Nat → Option Nat
  | 0, _ => none
  | fuel + 1, i =>
    let f := base + i % n * bytes
    if frameFits used f bytes mset then some f else searchFrame used base bytes mset n fuel (i + 1)

/-- A unit is on the failed-unit list (R404). -/
def State.unitFailed (s : State) (k : UnitKind) (id : Nat) : Bool := s.pk.failed.contains (k, id)

/-- A free frame of a stack; which one is the MP's choice (R250, log 10). -/
def State.frameOn (s : State) (used : List (Nat × Nat × Nat)) (stack bytes mset : Nat) : Option Nat :=
  if s.unitFailed .stack stack then none
  else
    let n := Config.stackBytes / bytes
    searchFrame used (stack * 2 ^ 37) bytes mset n n (Config.frameChoice s.freeCtr)

/-- The stacks in the order R250 tries them: the one asked for, those of its die, all. -/
def stackOrder (first : Nat) : List Nat :=
  first :: ((List.range 24).filter fun k => k / 6 == first / 6) ++ List.range 24

/-- Frames in use, each once: an aliased frame is one (R252). -/
def distinctFrames (used : List (Nat × Nat × Nat)) : List (Nat × Nat × Nat) :=
  used.foldl (fun fs f => if fs.any fun g => g.1 == f.1 then fs else f :: fs) []

/-- Bytes that frames and arenas leave free in HBM (R92). -/
def State.hbmFree (s : State) (used : List (Nat × Nat × Nat)) : Nat :=
  Config.memStacks * Config.stackBytes - s.ctxs.foldl (fun n e => n + e.2.arenaMiB * 2 ^ 20) 0
    - (distinctFrames used).foldl (fun n f => n + f.2.1) 0

/-- A frame for a page: on the stack asked for, or the home stack, then on the same die, then anywhere (R250). -/
def State.findFrame (s : State) (used : List (Nat × Nat × Nat)) (want home bytes mset : Nat) : Option Nat :=
  if s.hbmFree used < bytes then none
  else (stackOrder (if want < 24 then want else home)).findSome? fun k => s.frameOn used k bytes mset

/-- What a frame is wanted for: stack asked for, home, bytes, mask set. -/
structure FrameAsk where
  want : Nat
  home : Nat
  bytes : Nat
  mset : Nat
  /-- No other stack will do (R257). -/
  only : Bool

/-- A frame for an ask. -/
def State.frameFor (s : State) (used : List (Nat × Nat × Nat)) (a : FrameAsk) : Option Nat :=
  if a.only then (if s.hbmFree used < a.bytes then none else s.frameOn used a.want a.bytes a.mset)
  else s.findFrame used a.want a.home a.bytes a.mset

/-- Frames for several asks, or none. -/
def State.framesFor (s : State) (used : List (Nat × Nat × Nat)) : List FrameAsk → Option (List Nat × State)
  | [] => some ([], s)
  | a :: as =>
    match s.frameFor used a with
    | none => none
    | some f =>
      match State.framesFor s.useFree (used ++ [(f, a.bytes, a.mset)]) as with
      | none => none
      | some (fs, s1) => some (f :: fs, s1)

/-- A frame is given up: it is zeroed and freed, unless another page maps it too (R252, R255). -/
def State.freeFrame (s : State) (f bytes : Nat) : State :=
  if s.frames.any fun x => x.1 == f then s else { s with mem := s.mem.zero f bytes }

/-! ### Caches (R253) -/

/-- Dirty sectors of a range of an address space are written back, which counts them (R271), and every L1 and cluster-cache line of
it is invalidated (R253). Their bytes are in memory already (log 9). -/
def State.cleanRange (s : State) (asid lo n : Nat) : State :=
  let s1 := s.dropSectors fun x => x.asid == asid && lo ≤ x.va && x.va < lo + n
  { s1 with cores := s1.cores.map fun e =>
      (e.1, { e.2 with l1 := e.2.l1.filter fun l => !(l.asid == asid && lo ≤ l.va && l.va < lo + n) }) }

/-- Count every sector of a frame of a page (R271). -/
def State.countFrame (s : State) (asid : Nat) (p : Page) (frame mset : Nat) : State :=
  (List.range (p.bytes / 64)).foldl (fun s i => s.countSector asid { p with mset := mset } (frame + 64 * i)) s

/-! ### The device's own accesses (R121, R256, R396, R403) -/

/-- A range cut at multiples of 64: address and bytes of each piece. -/
def chunks : Nat → Nat → Nat → List (Nat × Nat)
  | 0, _, _ => []
  | fuel + 1, va, n =>
    if n = 0 then [] else
      let k := min n (64 - va % 64)
      (va, k) :: chunks fuel (va + k) (n - k)

/-- The pieces of a range. -/
def piecesOf (va n : Nat) : List (Nat × Nat) := chunks (n / 64 + 2) va n

/-- The highest cause that a device access of a range meets, or 0 (R256). -/
def State.rangeCause (s : State) (asid : Nat) (mode : Mode) (va n : Nat) (a : AccType) : Nat :=
  (piecesOf va n).foldl (fun c x => max c (s.causeAt asid mode x.1 a)) 0

/-- The pieces of a range whose page is not present. -/
def State.absentIn (s : State) (asid : Nat) (mode : Mode) (va n : Nat) (a : AccType) : List (Nat × Nat) :=
  ((piecesOf va n).filterMap fun x =>
    if s.causeAt asid mode x.1 a == causeNotPresent then (s.pageAt asid x.1).map fun e => (e.1, e.2.1) else none).eraseDups

/-- Write bytes at device scope: the sectors leave the cluster caches (R268, R271, R403). -/
def State.deviceWrite (s : State) (asid va : Nat) (bs : List Byte) : State :=
  (piecesOf va bs.length).foldl (fun s (a, n) =>
    match s.pageAt asid a with
    | none => s
    | some (sp, b, p) =>
      let s1 := s.dropSectors fun x => x.asid == sp && x.va == a / 64 * 64
      ((s1.countSector sp p (p.key b a)).reach sp b).vwrite asid a ((bs.drop (a - va)).take n)) s

/-- Read bytes at device scope (R268, R271). -/
def State.deviceRead (s : State) (asid va n : Nat) : State × List Byte :=
  ((piecesOf va n).foldl (fun s (a, _) =>
    match s.pageAt asid a with
    | none => s
    | some (sp, b, p) => (s.countSector sp p (p.key b a)).reach sp b) s, s.vbytes asid va n)

/-- The first piece of a range that must wait behind the copy of its page, with the page (R256, R263). -/
def State.heldPiece (s : State) (asid : Nat) (writes : Bool) (ps : List (Nat × Nat)) : Option (Nat × Nat × Nat) :=
  ps.findSome? fun x =>
    match s.pageAt asid x.1 with
    | some (a, b, p) => if s.holds p writes x.1 x.2 then some (a, b, x.1) else none
    | none => none

/-- A page that an access of the MP or of a link finds in the slow tier is brought in (R261). -/
def State.bringIn (s : State) (asid base : Nat) (w : Waiter) : State :=
  s.modPage asid base fun p =>
    { p with st := if p.st == .remote && p.back == 1 then .faulting else p.st,
             waiters := if p.waiters.contains w then p.waiters else p.waiters ++ [w] }

/-! ### Inbound link requests (R395, R396, R398) -/

/-- Bytes an inbound request reaches: of a compare-and-swap, half the data it brings (log 12). -/
def InReq.size (q : InReq) : Nat :=
  match q.kind with
  | .atomic op => if op == 10 then q.data.length / 2 else q.data.length
  | _ => q.data.length

/-- Its access type. -/
def InReq.acc (q : InReq) : AccType :=
  match q.kind with
  | .read => .read
  | .write => .write
  | .atomic _ => .atomic

/-- Change a port. -/
def State.modPort (s : State) (i : Nat) (f : Port → Port) : State := { s with ports := dset s.ports i (f (s.port i)) }

/-- Export windows whose EXP_DESTROY waited for the last answer end, and the command is answered (R395). -/
def State.closeWindows (s : State) : State :=
  s.pk.windows.foldl (fun s e =>
    match e.2.closing with
    | some tag =>
      if s.ports.any fun x => x.2.inb.any fun q => q.window == e.1 then s
      else { s with pk := { s.pk with windows := ddel s.pk.windows e.1 } }.respondTo tag codeOk [] []
    | none => s) s

/-- An inbound request is over (R395, R396). -/
def State.endInbound (s : State) (port tag : Nat) : State :=
  (s.modPort port fun x => { x with inb := x.inb.filter fun q => q.tag != tag }).closeWindows

/-- Answer an inbound request (R396). -/
def State.answerInbound (s : State) (port tag : Nat) (a : Answer) : State :=
  (s.modPort port fun x => { x with outbox := x.outbox ++ [.answer tag a] }).endInbound port tag

/-- A record of an inbound request in the exporting context's fault log; the manual gives its SOURCE no number (R384,
R396, R398). -/
def State.logInbound (s : State) (asid cause acc va : Nat) : State :=
  (s.logFault asid (s.unitRecord ((Config.freeWord s.freeCtr).toNat % 512) asid cause acc va)).useFree

/-- Serve an inbound request in the exporting context (R396): answered, refused with its cause logged, waiting for a page or behind
its copy (R263), or passed on where the page is itself a peer's. -/
def State.serveInbound (s : State) (port tag : Nat) : State :=
  match (s.port port).inb.find? fun q => q.tag == tag with
  | none => s
  | some q =>
    match dget s.pk.windows q.window with
    | none => s.answerInbound port tag .refused
    | some w =>
      let va := w.base + q.offset
      let n := q.size
      let bit := 2 ^ q.acc.bit
      let odd := q.acc == .atomic && (va % (max n 1) != 0)
      let c := max (if odd then causeMisaligned else 0) (s.rangeCause w.asid .normal va n q.acc)
      let refuse (s : State) (cause : Nat) : State := (s.logInbound w.asid cause bit va).answerInbound port tag .refused
      if c == causeNotPresent then
        let s1 := (s.absentIn w.asid .normal va n q.acc).foldl (fun s e => s.bringIn e.1 e.2 (.inbound port tag)) s
        s1.modPort port fun x => { x with inb := x.inb.map fun y => if y.tag == tag then { y with waiting := true } else y }
      else if c != 0 then refuse s c
      else
        match s.heldPiece w.asid q.acc.writes (piecesOf va n) with
        | some (a, b, _) =>
          (s.holdAt a b (.inbound port tag)).modPort port fun x =>
            { x with inb := x.inb.map fun y => if y.tag == tag then { y with waiting := true } else y }
        | none =>
        match s.pageAt w.asid va with
        | none => refuse s causeNotMapped
        | some (a, b, p) =>
          if p.st == .remote then
            match s.sendTo p (va - b) q.kind q.data (.inbound port tag) with
            | some (s1, _) => s1
            | none => refuse s causeRemoteTimeout
          else
            let keep (s : State) : State :=
              s.modPort port fun x => { x with performed := x.performed ++ [(tag, w.asid, va, bit)] }
            match q.kind with
            | .read =>
              let r := s.deviceRead w.asid va n
              (keep r.1).answerInbound port tag (.ok r.2)
            | .write => (keep (s.deviceWrite w.asid va q.data)).answerInbound port tag (.ok [])
            | .atomic op =>
              let bs := s.vbytes w.asid va n
              let u : Access := { lane := 0, half := 0, addr := va, n := n, data := q.data, got := [], st := .pending,
                                  req := none, desc := none, slow := false }
              let eff := accessEffect (.atomic op.toNat) u bs
              let s1 := s.deviceTouch (2 * (homeOf w.asid va / 6)) w.asid va a b p true
              (keep (match eff.2 with
                | some new => s1.vwrite w.asid va new
                | none => s1)).answerInbound port tag (.ok bs)

/-! ### Transfers of the MP (R403) -/

/-- The context, address, bytes and access type of a transfer. -/
def Xfer.range (x : Xfer) : Nat × Nat × Nat × AccType :=
  match x.cmd with
  | .xferIn a va d => (a, va, d.length, .write)
  | .xferOut a va n => (a, va, n, .read)
  | _ => (0, 0, 0, .read)

/-- The bytes a transfer carries in. -/
def Xfer.data (x : Xfer) : List Byte :=
  match x.cmd with
  | .xferIn _ _ d => d
  | _ => []

/-- A transfer is over. -/
def State.endXfer (s : State) (tag code : Nat) (bytes : List Byte) : State :=
  { s with mp := { s.mp with xfers := s.mp.xfers.filter fun x => x.tag != tag } }.respondTo tag code [] bytes

/-- Change a transfer under way. -/
def State.modXfer (s : State) (tag : Nat) (f : Xfer → Xfer) : State :=
  { s with mp := { s.mp with xfers := s.mp.xfers.map fun x => if x.tag == tag then f x else x } }

/-- The pieces of a transfer that lie in pages of a peer. -/
def State.remotePieces (s : State) (x : Xfer) : List (Nat × Nat) :=
  let (a, va, n, _) := x.range
  (piecesOf va n).filter fun y => ((s.pageAt a y.1).map fun e => e.2.2.st == .remote).getD false

/-- Send the requests of a transfer to pages of a peer; false where a port does not serve. -/
def State.askXfer (s : State) (x : Xfer) : List (Nat × Nat) → State × Bool
  | [] => (s, true)
  | (va, n) :: ps =>
    let (a, lo, _, acc) := x.range
    match s.pageAt a va with
    | none => (s, false)
    | some (_, b, p) =>
      let data := if acc.writes then ((x.data.drop (va - lo)).take n) else leBytes n 0
      match s.sendTo p (va - b) (if acc.writes then .write else .read) data (.xfer x.tag va) with
      | none => (s, false)
      | some (s1, _) => State.askXfer (s1.modXfer x.tag fun y => { y with left := y.left + 1 }) x ps

/-- Go on with a transfer (R403): refused with BAD_VA on a fatal cause, that of a port which does not serve among them, waiting for
pages, behind the copy of a page (R263) and for a peer's answers, or copied whole. What a peer refuses it refuses late (log 46). -/
def State.goXfer (s : State) (tag : Nat) : State :=
  match s.mp.xfers.find? fun x => x.tag == tag with
  | none => s
  | some x =>
    let (a, va, n, acc) := x.range
    let c := s.rangeCause a .token va n acc
    if x.bad || (c != 0 && c != causeNotPresent) then
      if x.left != 0 then s else s.endXfer tag codeBadVa []
    else if c == causeNotPresent then
      (s.absentIn a .token va n acc).foldl (fun s e => s.bringIn e.1 e.2 (.xfer tag e.2)) s
    else
      match s.heldPiece a acc.writes (piecesOf va n) with
      | some (sp, b, y) => s.holdAt sp b (.xfer tag y)
      | none =>
      let far := s.remotePieces x
      let dead := far.any fun y => ((s.pageAt a y.1).map fun e => !s.serving e.2.2).getD true
      if !x.asked && dead then s.endXfer tag codeBadVa []
      else if !x.asked && !far.isEmpty then
        let r := s.askXfer x far
        let s1 := r.1.modXfer tag fun y => { y with asked := true, bad := !r.2 }
        if r.2 then s1
        else if (s1.mp.xfers.any fun y => y.tag == tag && y.left == 0) then s1.endXfer tag codeBadVa [] else s1
      else if x.left != 0 then s
      else if acc.writes then
        let near := (piecesOf va n).filter fun y => !far.contains y
        (near.foldl (fun s y => s.deviceWrite a y.1 ((x.data.drop (y.1 - va)).take y.2)) s).endXfer tag codeOk []
      else
        let r := s.deviceRead a va n
        let bytes := (r.2.zipIdx).map fun (b, i) => (dget x.got (va + i)).getD b
        r.1.endXfer tag codeOk bytes

/-- A transfer is begun (R403). -/
def State.startXfer (s : State) (cmd : PageCmd) : State :=
  { s with mp := { s.mp with xfers := s.mp.xfers ++ [(⟨s.tag, cmd, false, 0, [], false⟩ : Xfer)] } }.goXfer s.tag

/-! ### Wakes (R261) -/

/-- One waiter at the home slice of a page of an address space is woken; `cause` is that of a failed promotion, or 0 (R261). -/
def State.wakeOne (s : State) (asid cause : Nat) (w : Waiter) : State :=
  match w with
  | .touch op i => if cause = 0 then s.retouch (op, i) else s.modUnit op i fun u => { u with st := .failed cause }
  | .wback va => s.countBack asid va
  | .counter kid =>
    if cause = 0 then s.stepCounter kid
    else
      match dget s.kernels kid with
      | some k =>
        (s.modKernel kid fun k => { k with stepped := true }).logFault k.asid
          (s.unitRecord (k.stepSrc.getD (s.stepSource k)) k.asid cause 8 (k.field 191 128))
      | none => s
  | .inbound port tag =>
    if cause = 0 then s.serveInbound port tag
    else
      match (s.port port).inb.find? fun q => q.tag == tag with
      | some q =>
        match dget s.pk.windows q.window with
        | some x => (s.logInbound x.asid cause (2 ^ q.acc.bit) (x.base + q.offset)).answerInbound port tag .refused
        | none => s.answerInbound port tag .refused
      | none => s
  | .xfer tag _ => if cause = 0 then s.goXfer tag else (s.modXfer tag fun x => { x with bad := true }).goXfer tag

/-- The home slice wakes every riddle with an entry for a page, which closes it and wakes the cores that sent records, and
its own waiters at once (R261). -/
def State.wakePage (s : State) (asid base cause : Nat) (ws : List Waiter) : State :=
  let page := pageId asid base
  let hit := s.clusters.flatMap fun e => (e.2.riddle.filter fun r => r.page == page).flatMap RiddleEntry.cores
  let s1 : State := { s with clusters := s.clusters.map fun e =>
    (e.1, { e.2 with riddle := e.2.riddle.filter fun r => r.page != page }) }
  let s2 := hit.eraseDups.foldl (fun s c => s.modCore c fun x => { x with wakes := x.wakes ++ [(asid, base, cause)] }) s1
  ws.foldl (fun s w => s.wakeOne asid cause w) (s2.modPage asid base fun p => { p with waiters := [] })

/-- A held access of a page is made again: it is no touch that has been held, and parks where its page is gone (R264). -/
def State.replayOne (s : State) (asid : Nat) (w : Waiter) : State :=
  (match w with
    | .touch op i => s.modUnit op i fun u => { u with st := .pending }
    | _ => s).wakeOne asid 0 w

/-- Held accesses of a page replay in the order in which they came (R255, R263). -/
def State.replayHold (s : State) (asid : Nat) (hold : List Waiter) : State := hold.foldl (State.replayOne · asid) s

/-! ### Sieve and riddle (R258 to R260, R384) -/

/-- The sieve has emitted a record: with a fatal cause it leaves for the team's records and the fault log (R258, R430). -/
def State.emitted (s : State) (core : Nat) (r : SieveRec) : State :=
  let s1 := match dget s.groups r.group with
    | some g => s.traceG g 3 r.rcd.acc (r.rcd.cause * 2 ^ 60 + r.rcd.va % 2 ^ 57)
    | none => s
  if r.rcd.cause == causeNotPresent then s1
  else
    let s2 := s1.modCore core fun c => { c with sieve := c.sieve.erase r }
    let s3 := match dget s2.groups r.group with
      | some g => s2.modTeam g.team fun t => { t with faults := t.faults ++ [r.rcd] }
      | none => s2
    s3.logFault r.rcd.asid r.rcd

/-- The GTS of the first emission for an instruction is noted at its operation, for the records it may still bring (R258). -/
def State.stampOp (s : State) (inst gts : Nat) : State :=
  match s.instOp inst with
  | some id => { s with flight := dmod s.flight id fun o => { o with fgts := some (o.fgts.getD gts) } }
  | none => s

/-- SIEVE_EMIT: the sieve emits its next record; the records of one instruction carry the GTS of the first emission
(R258). -/
def execSieveEmit (core : Nat) (s : State) : Out :=
  match (s.core core).sieve.find? fun r => !r.emitted with
  | none => .refused .notEnabled
  | some r =>
    let gts := (((s.core core).sieve.find? fun x => x.inst == r.inst && x.stamped).map fun x => x.rcd.gts).getD s.pk.gts
    let stamp (x : SieveRec) : SieveRec :=
      if x.inst == r.inst && !x.stamped then { x with rcd := { x.rcd with gts := gts }, stamped := true } else x
    let r1 := { stamp r with emitted := true }
    let s1 := s.modCore core fun c =>
      { c with sieve := c.sieve.map fun x => if x == r then r1 else stamp x }
    .next ((s1.stampOp r.inst gts).emitted core r1)

/-- (GTS, SOURCE) of one record comes before another's (R260). -/
def recBefore (a b : FaultRecord) : Bool := a.gts < b.gts || (a.gts == b.gts && a.source < b.source)

/-- The least of a list by (GTS, SOURCE), the first among equals. -/
def firstBy {α : Type} (f : α → FaultRecord) (l : List α) : Option α :=
  l.foldl (fun b x =>
    match b with
    | none => some x
    | some y => if recBefore (f x) (f y) then some x else some y) none

/-- RIDDLE_RECORD: an emitted record of a page not present reaches its cluster's riddle and opens or joins an entry; a full
riddle leaves new pages' records in their sieves (R260). -/
def execRiddleRecord (cluster : Nat) (s : State) : Out :=
  let x := s.cluster cluster
  let open' (page : Nat) : Bool := x.riddle.any fun r => r.page == page
  let cands := (s.cores.filter fun e => clusterOf e.1 == cluster).flatMap fun e =>
    (e.2.sieve.filter fun r =>
      r.emitted && r.rcd.cause == causeNotPresent && (open' r.page || x.riddle.length < 64)).map fun r => (e.1, r)
  match firstBy (fun e => e.2.rcd) cands with
  | none => .refused .notEnabled
  | some (core, r) =>
    let s1 := s.modCore core fun c => { c with sieve := c.sieve.erase r }
    let riddle :=
      if open' r.page then
        x.riddle.map fun e =>
          if e.page == r.page then
            { e with rcd := { e.rcd with mask := e.rcd.mask + 1, acc := e.rcd.acc ||| r.rcd.acc },
                     cores := if e.cores.contains core then e.cores else e.cores ++ [core] }
          else e
      else x.riddle ++ [⟨{ r.rcd with merged := true, mask := 1 }, r.page, [core], false⟩]
    .next { s1 with clusters := dset s1.clusters cluster { x with riddle := riddle } }

/-- RIDDLE_FORWARD: the riddle forwards its first entry not yet forwarded to the MP (R260). -/
def execRiddleForward (cluster : Nat) (s : State) : Out :=
  let x := s.cluster cluster
  match firstBy RiddleEntry.rcd (x.riddle.filter fun r => !r.forwarded) with
  | none => .refused .notEnabled
  | some r =>
    .next { s with
      clusters := dset s.clusters cluster
        { x with riddle := x.riddle.map fun e => if e.page == r.page then { e with forwarded := true } else e }
      mp := { s.mp with faults := s.mp.faults ++ [(r.page, r.rcd)] } }

/-- A record of a distributor of a cluster reaches its riddle: it joins the entry of its page or opens one; where the riddle is full
the next evaluation raises it again (R119, R258, R260). -/
def State.toRiddle (s : State) (cluster page : Nat) (f : FaultRecord) : State :=
  let x := s.cluster cluster
  let r1 : Option (List RiddleEntry) :=
    if x.riddle.any fun e => e.page == page then
      some (x.riddle.map fun e =>
        if e.page == page then { e with rcd := { e.rcd with mask := e.rcd.mask + 1, acc := e.rcd.acc ||| f.acc } } else e)
    else if x.riddle.length < 64 then some (x.riddle ++ [⟨{ f with merged := true, mask := 1 }, page, [], false⟩])
    else none
  match r1 with
  | some r => { s with clusters := dset s.clusters cluster { x with riddle := r } }
  | none => s

/-- MP_FAULT_ACCEPT: the MP takes the next fault entry: a page in the slow tier enters FAULTING; one that is being brought in
needs nothing; one that has changed state is woken at once (R260, R261). -/
def execMpFaultAccept (s : State) : Out :=
  match s.mp.faults with
  | [] => .refused .notEnabled
  | (page, _) :: rest =>
    let s1 : State := { s with mp := { s.mp with faults := rest } }
    let asid := page / 2 ^ 64
    let base := page % 2 ^ 64
    match (dget s1.ctxs asid).bind fun c => dget c.pages base with
    | none => .next (s1.wakePage asid base 0 [])
    | some p =>
      if p.st == .remote && p.back == 1 then .next (s1.modPage asid base fun p => { p with st := .faulting })
      else if p.st == .faulting || p.st == .promoting then .next s1
      else .next (s1.wakePage asid base 0 p.waiters)

/-! ### Eviction and promotion (R255, R264 to R268) -/

/-- The pages of a walk from `va`: whole pages, each with all its segments, one after the other; none where one is not
mapped or `va` is not a page's base (R248, R257). -/
def Ctx.walk (c : Ctx) : Nat → Nat → Option (List (Nat × Page))
  | 0, _ => some []
  | n + 1, va =>
    match dget c.pages va with
    | none => none
    | some p =>
      if p.owner != va then none
      else (Ctx.walk c n (va + classBytes p.sc)).map fun ps => (c.pages.filter fun e => e.2.owner == va) ++ ps

/-- A live version holds sectors in a page (R254). -/
def State.pageVersioned (s : State) (asid base : Nat) (p : Page) : Bool := s.versionIn asid base p.bytes

/-- The page the MP evicts under pressure: RESIDENT, BACK = 1, least recently reached, and none that a command names (R257, R268). -/
def State.victimPage (s : State) (asid : Nat) (named : List Nat) : Option (Nat × Page) :=
  match dget s.ctxs asid with
  | none => none
  | some c =>
    (c.pages.filter fun e =>
      e.2.st == .resident && e.2.back == 1 && !e.2.pinned && !named.contains e.1 && !s.pageVersioned asid e.1 e.2).foldl
      (fun b e =>
        match b with
        | none => some e
        | some x => if e.2.reached < x.2.reached then some e else some x) none

/-- A context's page is being evicted. -/
def State.evicting (s : State) (asid : Nat) : Bool :=
  ((dget s.ctxs asid).map fun c => c.pages.any fun e => e.2.st == .evicting).getD false

/-- The MP makes room in a context: an eviction under way will, or one is begun; none where there is nothing to evict
(R266, R268). -/
def State.makeRoom (s : State) (asid : Nat) (named : List Nat) : Option State :=
  match s.victimPage asid named with
  | some (b, _) => some (s.modPage asid b fun p => { p with st := .evicting })
  | none => none

/-- A promotion may begin: the page was faulted, or is due (R255, R266); not under the host's lock (R273). -/
def Page.mayPromote (p : Page) : Bool :=
  p.back == 1 && !p.hostlock && (p.st == .faulting || (p.st == .remote && p.due))

/-- A UR_XLATE with PULL that waits for its evictions names a page: it is answered as REMOTE, so no promotion begins before (R273). -/
def State.pulled (s : State) (asid base : Nat) : Bool :=
  s.mp.waiting.any fun w =>
    match w.stage, w.cmd with
    | .evicting, .xlate a va n _ _ =>
      a == asid && (((dget s.ctxs asid).bind fun c => c.walk n va).getD []).any fun e => e.1 == base
    | _, _ => false

/-- The copy of a promotion begins (R255). -/
def State.promoteTo (s : State) (asid base frame : Nat) : State :=
  s.modPage asid base fun p => { p with st := .promoting, newFrame := frame, since := s.pk.gts, due := false }

/-- What a promotion asks of the frames. -/
def Page.ask (p : Page) (asid base : Nat) : FrameAsk := ⟨p.stackReq, homeOf asid base, p.bytes, p.mset, false⟩

/-- PROMOTION_START: the MP has a frame for a page faulted or due and begins the copy, or first evicts a page of the same
context (R255, R266, R268). -/
def execPromotionStart (asid va : Nat) (s : State) : Out :=
  match (dget s.ctxs asid).bind fun c => dget c.pages va with
  | none => .refused .notEnabled
  | some p =>
    if !p.mayPromote || s.pulled asid va then .refused .notEnabled
    else
      match s.frameFor s.frames (p.ask asid va) with
      | some f => .next (s.useFree.promoteTo asid va f)
      | none =>
        if s.evicting asid then .refused .notEnabled
        else
          match s.makeRoom asid [] with
          | some s1 => .next s1
          | none => .refused .notEnabled

/-- The port of a page's slow tier does not serve. -/
def State.slowDown (s : State) (p : Page) : Bool :=
  match p.slowPort with
  | some i => (s.port i).st != .up && (s.port i).st != .degraded
  | none => false

/-- PROMOTION_DONE: the copy is whole, the page is RESIDENT on its frame, and its waiters are woken; a port that does not
serve brings none of it (R255, R261, R398). -/
def execPromotionDone (asid va : Nat) (s : State) : Out :=
  match (dget s.ctxs asid).bind fun c => dget c.pages va with
  | none => .refused .notEnabled
  | some p =>
    if p.st != .promoting || s.slowDown p then .refused .notEnabled
    else
      let s1 : State := { s with mem := s.mem.copy p.slowBase p.newFrame p.bytes }
      let s2 := (s1.countFrame asid p p.newFrame p.mset).modPage asid va fun p =>
        { p with st := .resident, frame := p.newFrame, waiters := [], due := false }
      .next (s2.wakePage asid va 0 p.waiters)

/-- A promotion is abandoned: the frame is zeroed and freed, the page is REMOTE, and the accesses woken take the cause
(R255, R261). -/
def State.abandon (s : State) (asid va : Nat) (p : Page) (cause : Nat) : State :=
  let s1 := s.modPage asid va fun p => { p with st := .remote, waiters := [] }
  (s1.freeFrame p.newFrame p.bytes).wakePage asid va cause p.waiters

/-- PROMOTION_FAIL: the first error answer to a request of the copy (R255). -/
def execPromotionFail (asid va : Nat) (s : State) : Out :=
  match (dget s.ctxs asid).bind fun c => dget c.pages va with
  | some p => if p.st == .promoting then .next (s.abandon asid va p causeRemoteFault) else .refused .notEnabled
  | none => .refused .notEnabled

/-- PROMOTION_TIMEOUT: a request of the copy has had no answer for the port's timeout, or at once where the port does not
serve (R255, R398). -/
def execPromotionTimeout (asid va : Nat) (s : State) : Out :=
  match (dget s.ctxs asid).bind fun c => dget c.pages va with
  | some p =>
    let timeout := ((p.slowPort.map fun i => (s.port i).timeoutUs).getD 1000) * 1000
    if p.st == .promoting && (s.slowDown p || p.since + timeout ≤ s.pk.gts) then
      .next (s.abandon asid va p causeRemoteTimeout)
    else .refused .notEnabled
  | none => .refused .notEnabled

/-- HEAT_DECAY: every 1,048,576 ns the heat of every page halves (R266). -/
def execHeatDecay (s : State) : Out :=
  if s.pk.gts < s.mp.heatAt + 1048576 then .refused .notEnabled
  else
    .next { s with
      mp := { s.mp with heatAt := s.mp.heatAt + 1048576 }
      ctxs := s.ctxs.map fun e =>
        (e.1, { e.2 with pages := e.2.pages.map fun q => (q.1, { q.2 with heat := q.2.heat / 2 }) }) }

/-- A migration begins (R263). -/
def State.migrateTo (s : State) (asid base frame mset : Nat) : State :=
  s.modPage asid base fun p => { p with st := .migrating, newFrame := frame, newMset := mset }

/-- MP_MIGRATION: the MP moves a RESIDENT page to a stack of its choice (R255, R263). -/
def execMpMigration (asid va stack : Nat) (s : State) : Out :=
  match (dget s.ctxs asid).bind fun c => dget c.pages va with
  | none => .refused .notEnabled
  | some p =>
    if p.st != .resident || p.pinned || 24 ≤ stack then .refused .notEnabled
    else
      match s.frameFor s.frames ⟨stack, 0, p.bytes, p.mset, true⟩ with
      | some f => .next (s.useFree.migrateTo asid va f p.mset)
      | none => .refused .notEnabled

/-- MIGRATION_DONE: the entry switches to the new frame, held accesses replay on it, and the old frame is zeroed and freed
(R255, R263, R264). -/
def execMigrationDone (asid va : Nat) (s : State) : Out :=
  match (dget s.ctxs asid).bind fun c => dget c.pages va with
  | none => .refused .notEnabled
  | some p =>
    if p.st != .migrating then .refused .notEnabled
    else
      let s1 := (s.countFrame asid p p.frame p.mset).countFrame asid p p.newFrame p.newMset
      let s2 : State := { s1 with mem := s1.mem.copy p.frame p.newFrame p.bytes }
      let s3 := s2.modPage asid va fun p =>
        { p with st := .resident, frame := p.newFrame, mset := p.newMset, hold := [] }
      .next ((s3.replayHold asid p.hold).freeFrame p.frame p.bytes)

/-- EVICTION_DONE: the page is in the slow tier: caches are cleaned, the frame is zeroed and freed, and held accesses replay
on the REMOTE page (R255, R264). -/
def execEvictionDone (asid va : Nat) (s : State) : Out :=
  match (dget s.ctxs asid).bind fun c => dget c.pages va with
  | none => .refused .notEnabled
  | some p =>
    if p.st != .evicting then .refused .notEnabled
    else
      let s1 : State := { s with mem := s.mem.copy p.frame p.slowBase p.bytes }
      let s2 := (s1.cleanRange asid va p.bytes).modPage asid va fun p => { p with st := .remote, hold := [], due := false }
      .next ((s2.freeFrame p.frame p.bytes).replayHold asid p.hold)

end Sys2Proof.Machine
end

