-- ==== Sys2Proof/Machine/PageCommands.lean ====
section
/-!
DEFINITION. The page commands of the mailbox (12_pages.md R248 to R257, R273) and the transfers of R403, with the waits of
R254.
-/
namespace Sys2Proof.Machine

/-! ### Pages a command names -/

/-- Bytes a walk covers; pages that are not mapped count as one byte. -/
def Ctx.walkBytes (c : Ctx) : Nat → Nat → Nat
  | 0, _ => 0
  | n + 1, va =>
    match dget c.pages va with
    | none => 1
    | some p => classBytes p.sc + Ctx.walkBytes c n (va + classBytes p.sc)

/-- Size class of an attribute word (R249). -/
def attrSc (a : BitVec 64) : Nat := (a.extractLsb' 32 4).toNat

/-- The address space, base and bytes a command names. -/
def State.cmdRange (s : State) (cmd : PageCmd) : Nat × Nat × Nat :=
  let walk (a va n : Nat) : Nat × Nat × Nat := (a, va, ((dget s.ctxs a).map fun c => c.walkBytes n va).getD 1)
  match cmd with
  | .map a va n attr _ => (a, va, n * classBytes (attrSc attr))
  | .unmap a va n => walk a va n
  | .protect a va n _ _ _ => walk a va n
  | .migrate a va _ => walk a va 1
  | .sethash a va n _ => walk a va n
  | .evict a va n => walk a va n
  | .promote a va n => walk a va n
  | .query a va => walk a va 1
  | .xlate a va n _ _ => walk a va n
  | .giveBack a va n => walk a va n
  | .xferIn a va d => (a, va, d.length)
  | .xferOut a va n => (a, va, n)

/-- Two ranges of one address space meet. -/
def cmdsMeet (x y : Nat × Nat × Nat) : Bool := x.1 == y.1 && x.2.1 < y.2.1 + y.2.2 && y.2.1 < x.2.1 + x.2.2

/-- One of the commands names a page of another that waits (R254). -/
def State.behind (s : State) (ws : List WaitingCmd) (cmd : PageCmd) : Bool :=
  ws.any fun w => (w.stage == .versions || w.stage == .behind) && cmdsMeet (s.cmdRange w.cmd) (s.cmdRange cmd)

/-- A command begins to wait under a number of its own. -/
def State.await (s : State) (cmd : PageCmd) (stage : WaitStage) : State :=
  { s.bump with mp := { s.mp with waiting := s.mp.waiting ++ [⟨s.nextId, s.tag, cmd, stage⟩] } }

/-- n lies in 1 to 4,096 (R257). -/
def countOk (n : Nat) : Bool := 1 ≤ n && n ≤ 4096

/-! ### PG_MAP (R248 to R252, R255) -/

/-- The reserved bits of an attribute word, and BACK and STACK, are as R249 asks; UNIFIED needs BACK = 1 (R272). -/
def attrOk (a : BitVec 64) : Bool :=
  let stack := (a.extractLsb' 40 8).toNat
  a.extractLsb' 48 16 == 0 && a.extractLsb' 36 4 == 0 && a.extractLsb' 19 2 == 0 && a.extractLsb' 8 6 == 0
    && a.extractLsb' 3 3 == 0 && a.extractLsb' 16 2 != 3 && (stack < 24 || stack == 0xFF)
    && (!a.getLsbD 7 || a.extractLsb' 16 2 == 1)

/-- The backing locator fits BACK and ZERO (R257). -/
def locatorOk (a : BitVec 64) (loc : Locator) : Bool :=
  match (a.extractLsb' 16 2).toNat, loc with
  | 0, .none => a.getLsbD 6
  | 0, .hostBuffer _ => !a.getLsbD 6
  | 0, .mirror _ _ => !a.getLsbD 6
  | 1, .slow _ port => port ≤ 15
  | 2, .window port window _ => port ≤ 15 && window ≤ 1023
  | _, _ => false

/-- A range is canonical from end to end (R248). -/
def rangeCanonical (va n : Nat) : Bool := canonical va && canonical (va + n - 1) && (va < 2 ^ 56) == (va + n - 1 < 2 ^ 56)

/-- A range meets a page or an attachment of a context (R248, R252). -/
def Ctx.rangeTaken (c : Ctx) (va n : Nat) : Bool :=
  c.pages.any (fun e => e.1 < va + n && va < e.1 + e.2.bytes) || c.attach.any fun a => a.base < va + n && va < a.base + a.size

/-- A unit of translation that a PG_MAP makes: its base and the page (R248, R249). -/
def newPage (va i : Nat) (attr : BitVec 64) (loc : Locator) : Nat × Page :=
  let sc := attrSc attr
  let unit := min (classBytes sc) (2 ^ 21)
  let base := va + i * unit
  let back := (attr.extractLsb' 16 2).toNat
  (base,
    { sc := sc, owner := va + (i * unit) / classBytes sc * classBytes sc, r := attr.getLsbD 0, w := attr.getLsbD 1,
      x := attr.getLsbD 2, zero := attr.getLsbD 6, back := back, mset := (attr.extractLsb' 14 2).toNat,
      unified := attr.getLsbD 7, hostlock := false, stackReq := (attr.extractLsb' 40 8).toNat,
      st := if back = 0 then .resident else .remote, frame := 0, newFrame := 0, loc := loc, locOff := i * unit,
      pinned := false, heat := 0, due := false, since := 0, hold := [], waiters := [], reached := 0, newMset := 0 })

/-- The units of translation of n pages. -/
def newPages (va n : Nat) (attr : BitVec 64) (loc : Locator) : List (Nat × Page) :=
  let sc := attrSc attr
  (List.range (n * (classBytes sc / min (classBytes sc) (2 ^ 21)))).map fun i => newPage va i attr loc

/-- Enter pages into a context's space. -/
def State.enterPages (s : State) (asid : Nat) (ps : List (Nat × Page)) : State :=
  s.modCtx asid fun c => { c with pages := ps.foldl (fun m e => dset m e.1 e.2) c.pages }

/-- The source pages of a mirror, unit by unit, or a refusal: each mapped with a frame of BACK 0, of the same class and mask
set (R252, R257). -/
def State.aliasSources (s : State) (asid va : Nat) (ps : List (Nat × Page)) : Except Nat (List Page) :=
  match dget s.ctxs asid with
  | none => .error codeBadAttr
  | some c =>
    ps.foldl (fun r e =>
      match r, dget c.pages (va + e.2.locOff) with
      | .error k, _ => .error k
      | .ok _, none => .error codeBadAttr
      | .ok l, some q =>
        if q.back != 0 || q.sc != e.2.sc || q.mset != e.2.mset || (q.st != .resident && q.st != .sealed) then
          .error codeBadAttr
        else if q.w || e.2.w then .error codeSynonym
        else .ok (l ++ [q])) (.ok [])

/-- Give frames to pages in order. -/
def withFrames (ps : List (Nat × Page)) (fs : List Nat) : List (Nat × Page) :=
  (ps.zip fs).map fun x => (x.1.1, { x.1.2 with frame := x.2 })

/-- Fill the frames of new pages from a buffer, the rest being zero (R255). -/
def State.fillFrames (s : State) (data : List Byte) (ps : List (Nat × Page)) : State :=
  ps.foldl (fun s e =>
    { s with mem := (s.mem.zero e.2.frame e.2.bytes).writeN e.2.frame ((data.drop e.2.locOff).take e.2.bytes) }) s

/-- What PG_MAP comes to: a refusal, the new state, or no frame. -/
inductive MapResult where
  | refuse (code : Nat)
  | done (s : State)
  | noFrame

/-- The checks and the effect of PG_MAP (R248 to R252, R255, R257). -/
def State.tryMap (s : State) (asid va n : Nat) (attr : BitVec 64) (loc : Locator) : MapResult :=
  match dget s.ctxs asid with
  | none => .refuse codeNoSuchContext
  | some c =>
    let size := classBytes (attrSc attr)
    if !(countOk n && attrOk attr && locatorOk attr loc) then .refuse codeBadAttr
    else if va % size != 0 || !rangeCanonical va (n * size) || c.rangeTaken va (n * size) then .refuse codeBadVa
    else
      let ps := newPages va n attr loc
      match loc with
      | .mirror a v =>
        match s.aliasSources a v ps with
        | .error k => .refuse k
        | .ok qs => .done (s.enterPages asid (withFrames ps (qs.map Page.frame)))
      | .slow .. => .done (s.enterPages asid ps)
      | .window .. => .done (s.enterPages asid ps)
      | _ =>
        match s.framesFor s.frames (ps.map fun e => e.2.ask asid e.1) with
        | none => .noFrame
        | some (fs, s1) =>
          let data := match loc with
            | .hostBuffer d => d
            | _ => []
          let qs := withFrames ps fs
          .done ((s1.fillFrames data qs).enterPages asid qs)

/-- A command finds no frame: it waits for an eviction of the context's pages but those it names, if there is any to make (R257,
R268). -/
def State.awaitFrames (s : State) (asid : Nat) (cmd : PageCmd) (named : List Nat) : Out :=
  if s.evicting asid then .next (s.await cmd .frames)
  else
    match s.makeRoom asid named with
    | some s1 => .next (s1.await cmd .frames)
    | none => s.answer codeNoMemory

/-- PG_MAP in its turn (R257). -/
def pgMapBody (asid va n : Nat) (attr : BitVec 64) (loc : Locator) (s : State) : Out :=
  match s.tryMap asid va n attr loc with
  | .refuse k => s.answer k
  | .done s1 => s1.answer codeOk
  | .noFrame => s.awaitFrames asid (.map asid va n attr loc) []

/-! ### PG_UNMAP (R253 to R255) -/

/-- The pages a command acts on, or its refusal: n, the mapping, and the dump region (R97, R257). -/
def Ctx.named (c : Ctx) (va n : Nat) : Except Nat (List (Nat × Page)) :=
  if !countOk n then .error codeBadAttr
  else
    match c.walk n va with
    | none => .error codeBadVa
    | some ps => .ok ps

/-- The same for a command that does not act on the dump region (R97). -/
def Ctx.namedFree (c : Ctx) (va n : Nat) : Except Nat (List (Nat × Page)) :=
  match c.named va n with
  | .error k => .error k
  | .ok ps => if ps.any fun e => e.2.pinned then .error codePageBusy else .ok ps

/-- Some live version holds sectors in one of the pages (R254). -/
def State.anyVersioned (s : State) (asid : Nat) (ps : List (Nat × Page)) : Bool :=
  ps.any fun e => s.pageVersioned asid e.1 e.2

/-- One page becomes UNMAPPED (R253, R255, R267). -/
def State.unmapOne (s : State) (asid base : Nat) (p : Page) : State :=
  let s1 := (s.cleanRange asid base p.bytes).modCtx asid fun c =>
    { c with pages := ddel c.pages base, promoDropped := if p.st == .promoting then c.promoDropped + 1 else c.promoDropped }
  let s2 := p.frames.foldl (fun s f => s.freeFrame f.1 f.2.1) s1
  (s2.replayHold asid p.hold).wakePage asid base 0 p.waiters

/-- The pages of a command as they are now. -/
def State.namedNow (s : State) (asid va n : Nat) : List (Nat × Page) :=
  ((dget s.ctxs asid).bind fun c => c.walk n va).getD []

/-- A page of the list is MIGRATING: PG_UNMAP and the others wait until it is RESIDENT (R255). -/
def anyMigrating (ps : List (Nat × Page)) : Bool := ps.any fun e => e.2.st == .migrating

/-- The effect of PG_UNMAP. -/
def State.unmapNow (s : State) (asid va n : Nat) : State :=
  (s.namedNow asid va n).foldl (fun s e => s.unmapOne asid e.1 e.2) s

/-- PG_UNMAP in its turn (R254, R255). -/
def pgUnmapBody (asid va n : Nat) (s : State) (c : Ctx) : Out :=
  match c.namedFree va n with
  | .error k => s.answer k
  | .ok ps =>
    if s.anyVersioned asid ps || anyMigrating ps then .next (s.await (.unmap asid va n) .versions)
    else (s.unmapNow asid va n).answer codeOk

/-! ### PG_PROTECT (R253, R254) -/

/-- The frame of a page is mapped by another page too (R252). -/
def State.aliased (s : State) (p : Page) : Bool :=
  p.st != .remote && p.st != .faulting && 1 < (s.frames.filter fun f => f.1 == p.frame).length

/-- The effect of PG_PROTECT: new permissions, and caches cleaned where R or W goes (R253). -/
def State.protectNow (s : State) (asid va n : Nat) (r w x : Bool) : State :=
  (s.namedNow asid va n).foldl (fun s e =>
    let s1 := if (e.2.r && !r) || (e.2.w && !w) then s.cleanRange asid e.1 e.2.bytes else s
    s1.modPage asid e.1 fun p => { p with r := r, w := w, x := x }) s

/-- PG_PROTECT in its turn: removing W waits for versions; W on a frame with another mapping is refused (R252, R254). -/
def pgProtectBody (asid va n : Nat) (r w x : Bool) (s : State) (c : Ctx) : Out :=
  match c.namedFree va n with
  | .error k => s.answer k
  | .ok ps =>
    if w && (ps.any fun e => s.aliased e.2) then s.answer codeSynonym
    else if !w && s.anyVersioned asid (ps.filter fun e => e.2.w) then .next (s.await (.protect asid va n r w x) .versions)
    else (s.protectNow asid va n r w x).answer codeOk

/-! ### PG_MIGRATE, PG_SETHASH (R255, R263) -/

/-- PG_MIGRATE in its turn: one page, or one segment of a larger page (R248, R257). -/
def pgMigrateBody (asid va stack : Nat) (s : State) (c : Ctx) : Out :=
  if 24 ≤ stack then s.answer codeBadAttr
  else
    match dget c.pages va with
    | none => s.answer codeBadVa
    | some p =>
      if p.pinned || p.st != .resident then s.answer codePageBusy
      else
        match s.frameFor s.frames ⟨stack, 0, p.bytes, p.mset, true⟩ with
        | none => s.awaitFrames asid (.migrate asid va stack) [va]
        | some f => (s.useFree.migrateTo asid va f p.mset).answer codeOk

/-- PG_SETHASH in its turn: each page to a frame under the new selector on its own stack (R257). -/
def pgSethashBody (asid va n mset : Nat) (s : State) (c : Ctx) : Out :=
  if 4 ≤ mset then s.answer codeBadAttr
  else
    match c.namedFree va n with
    | .error k => s.answer k
    | .ok ps =>
      if ps.any fun e => e.2.st != .resident then s.answer codePageBusy
      else
        match s.framesFor s.frames (ps.map fun e => ⟨e.2.frame / 2 ^ 37, 0, e.2.bytes, mset, true⟩) with
        | none => s.awaitFrames asid (.sethash asid va n mset) (ps.map Prod.fst)
        | some (fs, s1) =>
          ((ps.zip fs).foldl (fun s x => s.migrateTo asid x.1.1 x.2 mset) s1).answer codeOk

/-! ### PG_EVICT, PG_PROMOTE (R255, R266) -/

/-- RESIDENT pages with BACK = 1 of a command enter EVICTING. -/
def State.evictNow (s : State) (asid va n : Nat) : State :=
  (s.namedNow asid va n).foldl (fun s e =>
    s.modPage asid e.1 fun p => if p.st == .resident && p.back == 1 then { p with st := .evicting } else p) s

/-- PG_EVICT in its turn: once no version holds sectors, the pages enter EVICTING; it is answered when they have left it
(R253, R254, R257). -/
def pgEvictBody (asid va n : Nat) (s : State) (c : Ctx) : Out :=
  match c.namedFree va n with
  | .error k => s.answer k
  | .ok ps =>
    if ps.any fun e => e.2.st != .resident then s.answer codePageBusy
    else if ps.any fun e => e.2.back != 1 then s.answer codeBadAttr
    else if s.anyVersioned asid ps then .next (s.await (.evict asid va n) .versions)
    else .next ((s.evictNow asid va n).await (.evict asid va n) .evicting)

/-- PG_PROMOTE in its turn: every page goes, with a frame for each; the promotion of one under the host's lock waits (R257, R266,
R273). -/
def pgPromoteBody (asid va n : Nat) (s : State) (c : Ctx) : Out :=
  match c.named va n with
  | .error k => s.answer k
  | .ok ps =>
    if ps.any fun e => e.2.st != .remote || e.2.back != 1 then s.answer codePageBusy
    else
      let wait (e : Nat × Page) : Bool := e.2.hostlock || s.pulled asid e.1
      let go := ps.filter fun e => !wait e
      match s.framesFor s.frames (go.map fun e => e.2.ask asid e.1) with
      | none => s.awaitFrames asid (.promote asid va n) []
      | some (fs, s1) =>
        let s2 := (ps.filter wait).foldl (fun s e => s.modPage asid e.1 fun p => { p with due := true }) s1
        ((go.zip fs).foldl (fun s x => s.promoteTo asid x.1.1 x.2) s2).answer codeOk

/-! ### PG_QUERY, SH_ATTACH, PCH_QUERY (R249, R252, R271) -/

/-- The STATE field of a page (R249). -/
def PageSt.code (p : PageSt) : Nat :=
  match p with
  | .resident => 1
  | .faulting => 2
  | .migrating => 3
  | .sealed => 4
  | .remote => 5
  | .promoting => 6
  | .evicting => 7

/-- A bit of a word. -/
def bit (b : Bool) (n : Nat) : Nat := if b then 2 ^ n else 0

/-- The attribute word of a page, its read-only fields filled (R249). -/
def Page.attrWord (p : Page) (asid base : Nat) : DWord :=
  let stack := match p.frames with
    | (f, _, _) :: _ => f / 2 ^ 37
    | [] => p.stackReq
  BitVec.ofNat 64 (stack * 2 ^ 40 + p.sc * 2 ^ 32 + homeOf asid base * 2 ^ 24 + p.st.code * 2 ^ 21 + bit p.hostlock 18
    + p.back * 2 ^ 16 + p.mset * 2 ^ 14 + bit p.unified 7 + bit p.zero 6 + bit p.x 2 + bit p.w 1 + bit p.r 0)

/-- PG_QUERY in its turn: the attribute word; an address where nothing is mapped reads as UNMAPPED at its home (R249,
R257). -/
def pgQueryBody (asid va : Nat) (s : State) (c : Ctx) : Out :=
  match dget c.pages va, c.pageAt va with
  | some p, _ => .next (s.respond codeOk [p.attrWord asid va] [])
  | none, some _ => s.answer codeBadVa
  | none, none =>
    if canonical va && va % 4096 == 0 then .next (s.respond codeOk [BitVec.ofNat 64 (0xFF * 2 ^ 40 + homeOf asid va * 2 ^ 24)] [])
    else s.answer codeBadVa

/-- SH_ATTACH: a shared ASID over a range of the context (R252, R354). -/
def execShAttach (asid shared base size : Nat) (s : State) : Out :=
  onContextIn s asid statesServing fun c =>
    match dget s.ctxs shared with
    | none => s.answer codeNoSuchContext
    | some x =>
      if shared == asid || !x.queues.isEmpty || 4 ≤ c.attach.length then s.answerUnstated
      else if base % 2 ^ 21 != 0 || size % 2 ^ 21 != 0 || size == 0 || !rangeCanonical base size || c.rangeTaken base size
          || c.regionMeets base size then s.answer codeBadVa
      else (s.modCtx asid fun c => { c with attach := c.attach ++ [⟨shared, base, size⟩] }).answer codeOk

/-- PCH_QUERY: the 64 counters of a stack, zeroed after the read with CLEAR (R271). -/
def execPchQuery (asid stack : Nat) (clear : Bool) (s : State) : Out :=
  onContextIn s asid [.armed, .active, .suspended, .draining] fun c =>
    if 24 ≤ stack then s.answer codeBadAttr
    else
      let s1 := if clear then s.modCtx asid fun c => { c with pch := c.pch.filter fun e => e.1 / 64 != stack } else s
      .next (s1.respond codeOk ((List.range 64).map fun i => BitVec.ofNat 64 (sget 0 c.pch (64 * stack + i))) [])

/-! ### UR_XLATE, UR_RETURN (R272, R273) -/

/-- The answer for one page: for a host-held page 1, its host address and the permissions granted; for a device-held page
0 (DEVICE). -/
def Page.hostWords (p : Page) (host : Bool) : List DWord :=
  match host, p.loc with
  | true, .slow store _ => [1, BitVec.ofNat 64 (store + p.locOff), BitVec.ofNat 64 (bit p.x 2 + bit p.w 1 + bit p.r 0)]
  | _, _ => [0, 0, 0]

/-- Answer UR_XLATE: with W requested and granted, REMOTE pages are locked. A page that PULL has evicted is answered so also where it
has been faulted since (R273). -/
def State.xlateNow (s : State) (asid va n : Nat) (w pull : Bool) : Out :=
  let ps := s.namedNow asid va n
  let host (p : Page) : Bool := p.st == .remote || (pull && p.st == .faulting)
  let s1 := if w then ps.foldl (fun s e =>
    s.modPage asid e.1 fun p => if host p && p.w then { p with hostlock := true } else p) s else s
  .next (s1.respond codeOk (ps.flatMap fun e => e.2.hostWords (host e.2)) [])

/-- A page on its way: it becomes RESIDENT before it can be evicted. -/
def Page.coming (p : Page) : Bool := p.st == .faulting || p.st == .promoting || p.st == .migrating

/-- UR_XLATE in its turn: with PULL, device-held pages are evicted first (R254, R273). -/
def urXlateBody (asid va n : Nat) (w pull : Bool) (s : State) (c : Ctx) : Out :=
  match c.namedFree va n with
  | .error k => s.answer k
  | .ok ps =>
    if ps.any fun e => !e.2.unified then s.answer codeBadAttr
    else if !pull || ps.all (fun e => e.2.st == .remote) then s.xlateNow asid va n w false
    else if ps.any fun e => e.2.st == .sealed then s.answer codePageBusy
    else if s.anyVersioned asid ps || ps.any (fun e => e.2.coming) then
      .next (s.await (.xlate asid va n w pull) .versions)
    else .next ((s.evictNow asid va n).await (.xlate asid va n w pull) .evicting)

/-- UR_RETURN in its turn: HOSTLOCK is cleared (R273). -/
def urReturnBody (asid va n : Nat) (s : State) (c : Ctx) : Out :=
  match c.named va n with
  | .error k => s.answer k
  | .ok ps =>
    if ps.any fun e => !e.2.unified then s.answer codeBadAttr
    else (ps.foldl (fun s e => s.modPage asid e.1 fun p => { p with hostlock := false }) s).answer codeOk

/-! ### Taking page commands (R94, R254) -/

/-- A page command in its turn. -/
def PageCmd.body (cmd : PageCmd) (s : State) : Out :=
  match cmd with
  | .map a va n attr loc => onContextIn s a statesServing fun _ => pgMapBody a va n attr loc s
  | .unmap a va n => onContextIn s a statesServing (pgUnmapBody a va n s)
  | .protect a va n r w x => onContextIn s a statesServing (pgProtectBody a va n r w x s)
  | .migrate a va stack => onContextIn s a statesServing (pgMigrateBody a va stack s)
  | .sethash a va n mset => onContextIn s a statesServing (pgSethashBody a va n mset s)
  | .evict a va n => onContextIn s a statesServing (pgEvictBody a va n s)
  | .promote a va n => onContextIn s a statesServing (pgPromoteBody a va n s)
  | .query a va => onContextIn s a [.armed, .active, .suspended, .draining] (pgQueryBody a va s)
  | .xlate a va n w pull => onContextIn s a statesServing (urXlateBody a va n w pull s)
  | .giveBack a va n => onContextIn s a statesServing (urReturnBody a va n s)
  | .xferIn a va d => onContext s a fun _ => .next (s.startXfer (.xferIn a va d))
  | .xferOut a va n => onContext s a fun _ => .next (s.startXfer (.xferOut a va n))

/-- A page command is taken: it waits behind an earlier one that names its pages, or has its turn (R254). -/
def takePageCmd (cmd : PageCmd) (s : State) : Out :=
  onCommand s (if s.behind s.mp.waiting cmd then .next (s.await cmd .behind) else cmd.body s)

/-- PG_MAP (R255). -/
def execPgMap (asid va n : Nat) (attr : BitVec 64) (loc : Locator) (s : State) : Out :=
  takePageCmd (.map asid va n attr loc) s
/-- PG_UNMAP (R255). -/
def execPgUnmap (asid va n : Nat) (s : State) : Out := takePageCmd (.unmap asid va n) s
/-- PG_PROTECT (R253). -/
def execPgProtect (asid va n : Nat) (r w x : Bool) (s : State) : Out := takePageCmd (.protect asid va n r w x) s
/-- PG_MIGRATE (R263). -/
def execPgMigrate (asid va stack : Nat) (s : State) : Out := takePageCmd (.migrate asid va stack) s
/-- PG_SETHASH (R257). -/
def execPgSethash (asid va n mset : Nat) (s : State) : Out := takePageCmd (.sethash asid va n mset) s
/-- PG_EVICT (R255). -/
def execPgEvict (asid va n : Nat) (s : State) : Out := takePageCmd (.evict asid va n) s
/-- PG_PROMOTE (R266). -/
def execPgPromote (asid va n : Nat) (s : State) : Out := takePageCmd (.promote asid va n) s
/-- PG_QUERY (R249). -/
def execPgQuery (asid va : Nat) (s : State) : Out := takePageCmd (.query asid va) s
/-- UR_XLATE (R273). -/
def execUrXlate (asid va n : Nat) (w pull : Bool) (s : State) : Out := takePageCmd (.xlate asid va n w pull) s
/-- UR_RETURN (R273). -/
def execUrReturn (asid va n : Nat) (s : State) : Out := takePageCmd (.giveBack asid va n) s
/-- XFER_IN: copies a BAR2 payload into a context's space at device scope (R403). -/
def execXferIn (asid va : Nat) (data : List Byte) (s : State) : Out := takePageCmd (.xferIn asid va data) s
/-- XFER_OUT: copies a context's bytes into BAR2 (R403). -/
def execXferOut (asid va bytes : Nat) (s : State) : Out := takePageCmd (.xferOut asid va bytes) s

/-- The effect of a command that waited for versions, once it finds none (R254). -/
def PageCmd.effect (cmd : PageCmd) (s : State) : Out :=
  match cmd with
  | .unmap a va n => (s.unmapNow a va n).answer codeOk
  | .protect a va n r w x => (s.protectNow a va n r w x).answer codeOk
  | .evict a va n => .next ((s.evictNow a va n).await cmd .evicting)
  | .xlate a va n _ _ =>
    if (s.namedNow a va n).any fun e => e.2.st == .sealed then s.answer codePageBusy
    else .next ((s.evictNow a va n).await cmd .evicting)
  | _ => cmd.body s

/-- The pages a waiting command acts on, as they are now. -/
def State.waitPages (s : State) (cmd : PageCmd) : List (Nat × Page) :=
  match cmd with
  | .unmap a va n => s.namedNow a va n
  | .protect a va n _ _ _ => s.namedNow a va n
  | .evict a va n => s.namedNow a va n
  | .xlate a va n _ _ => s.namedNow a va n
  | _ => []

/-- Its wait is not over: versions hold sectors, or a page is on its way to RESIDENT (R254, R255). -/
def State.mustStillWait (s : State) (cmd : PageCmd) : Bool :=
  let ps := s.waitPages cmd
  let ps' := match cmd with
    | .protect .. => ps.filter fun e => e.2.w
    | _ => ps
  s.anyVersioned cmd.asid ps' ||
  match cmd with
  | .protect .. => false
  | .xlate .. => ps.any fun e => e.2.coming
  | _ => anyMigrating ps

/-- PAGE_COMMAND_EFFECT: a page command that waited goes on: it is checked once the one before it has taken effect, takes
effect once no version holds its pages, is answered once its evictions are over, or finds its frame (R253, R254, R268). -/
def execPageCommandEffect (n : Nat) (s : State) : Out :=
  match s.mp.waiting.find? fun w => w.id == n with
  | none => .refused .notEnabled
  | some w =>
    let before := s.mp.waiting.takeWhile fun x => x.id != n
    let s1 : State := { s with tag := w.tag, mp := { s.mp with waiting := s.mp.waiting.filter fun x => x.id != n } }
    match w.stage with
    | .behind => if s.behind before w.cmd then .refused .notEnabled else w.cmd.body s1
    | .versions => if s.mustStillWait w.cmd then .refused .notEnabled else w.cmd.effect s1
    | .evicting =>
      if (s.waitPages w.cmd).any fun e => e.2.st == .evicting then .refused .notEnabled
      else
        match w.cmd with
        | .xlate a va n wr _ => s1.xlateNow a va n wr true
        | _ => s1.answer codeOk
    | .frames => if s.evicting w.cmd.asid then .refused .notEnabled else w.cmd.body s1

end Sys2Proof.Machine
end

