-- ==== Sys2Proof/Machine/Links.lean ====
section
/-!
DEFINITION. Links (19_links.md R392 to R399): the link commands, the states of a port, attestation, export windows, inbound
and outbound requests, and time alignment.
-/
namespace Sys2Proof.Machine

/-! ### Port commands (R392, R393) -/

/-- A command on a port that is permitted in some link states only (R392). -/
def onPort (s : State) (port : Nat) (sts : List PortSt) (k : Port → Out) : Out :=
  onCommand s (if 16 ≤ port || !sts.contains (s.port port).st then s.answer codeBadLink else k (s.port port))

/-- LK_CONFIG (R392). -/
def execLkConfig (port timeout : Nat) (tmaster : Bool) (s : State) : Out :=
  onPort s port [.down] fun _ =>
    if timeout != 0 && (timeout < 10 || 100000 < timeout) then s.answer codeBadLink
    else (s.modPort port fun x =>
      { x with timeoutUs := if timeout = 0 then 1000 else timeout, tmaster := tmaster }).answer codeOk

/-- LK_ENABLE (R393). -/
def execLkEnable (port : Nat) (s : State) : Out :=
  onPort s port [.down] fun _ => (s.modPort port fun x => { x with st := .training, since := s.pk.gts }).answer codeOk

/-- LK_DISABLE (R393). -/
def execLkDisable (port : Nat) (s : State) : Out :=
  onPort s port [.up, .degraded] fun _ =>
    (s.modPort port fun x => { x with st := .draining, since := s.pk.gts }).answer codeOk

/-- LK_RESET (R393). -/
def execLkReset (port : Nat) (s : State) : Out :=
  onPort s port [.failed] fun _ => (s.modPort port fun x => { x with st := .down, since := s.pk.gts }).answer codeOk

/-- Number of a link state, in the order of R393. -/
def PortSt.code (p : PortSt) : Nat :=
  match p with
  | .down => 0
  | .training => 1
  | .attesting => 2
  | .up => 3
  | .degraded => 4
  | .draining => 5
  | .failed => 6

/-- The state is one in which lanes serve (R393). -/
def PortSt.hasLanes (p : PortSt) : Bool := p == .attesting || p == .up || p == .degraded || p == .draining

/-- LK_QUERY: state, lanes in service, timeout, counters, and the peer hash (R392, R397). -/
def execLkQuery (port : Nat) (s : State) : Out :=
  onCommand s (if 16 ≤ port then s.answer codeBadLink
    else
      let x := s.port port
      .next (s.respond codeOk
        ([x.st.code, if x.st.hasLanes then x.lanes else 0, x.timeoutUs, x.sent, x.answered, x.faulted, x.timedOut, x.late].map
          (BitVec.ofNat 64)) x.peer))

/-- TRUST_ADD (R392, R394). -/
def execTrustAdd (hash : List Byte) (s : State) : Out :=
  onCommand s (if hash.length != 32 then s.answer codeBadFrame
    else ({ s with pk := { s.pk with trust := if s.pk.trust.contains hash then s.pk.trust else s.pk.trust ++ [hash] } }
      : State).answer codeOk)

/-! ### Export windows (R395) -/

/-- EXP_CREATE: the lowest free window id (R395). -/
def execExpCreate (asid base size : Nat) (r w a : Bool) (peer : List Byte) (s : State) : Out :=
  onContextIn s asid statesServing fun _ =>
    if base % 2 ^ 21 != 0 || size % 2 ^ 21 != 0 || size < 2 ^ 21 || 2 ^ 40 < size || !rangeCanonical base size then
      s.answerUnstated
    else
      match (List.range 1024).find? fun n => (dget s.pk.windows n).isNone with
      | none => s.answer codeNoWindow
      | some n =>
        .next (({ s with pk := { s.pk with windows := dset s.pk.windows n ⟨asid, base, size, r, w, a, peer, none⟩ } }
          : State).respond codeOk [BitVec.ofNat 64 n] [])

/-- EXP_DESTROY: the window is closed, and the command is answered when every request accepted for it has been (R395). -/
def execExpDestroy (asid window : Nat) (s : State) : Out :=
  onContextIn s asid statesServing fun _ =>
    match dget s.pk.windows window with
    | none => s.answer codeNoWindow
    | some x =>
      if x.asid != asid || x.closing.isSome then s.answer codeNoWindow
      else
        let s1 : State := { s with pk := { s.pk with
          windows := dset s.pk.windows window { x with closing := some s.tag } } }
        .next s1.closeWindows

/-! ### Outcomes of outbound requests (R397, R398) -/

/-- The effect of an answer to an access: the bytes read, or a cause. In-place reads take the slow tier's bytes (R265); a rotated load
goes on with its element, under the one binding of its descriptor (R200, R340). -/
def State.settleAccess (s : State) (op i : Nat) (res : Sum Nat (List Byte)) : State :=
  match dget s.flight op with
  | none => s
  | some o =>
    match o.work, dget s.teams o.team with
    | .mem m, some t =>
      match m.units[i]? with
      | none => s
      | some u =>
        match res with
        | .inl cause => s.modUnit op i fun u => { u with st := .failed cause, req := none }
        | .inr data =>
          if m.kind == .rot then
            let es := (u.desc.map fun d => typeBytes d.2.fmt).getD 0
            let u1 := { u with data := u.data ++ data.take es, req := none }
            (s.modUnit op i fun _ => u1).rotStep op i o m t u1
          else
          let got : List Byte :=
            match s.pageAt t.asid u.addr with
            | some (_, b, p) => if p.back == 1 then s.mem.readN (p.slowBase + (u.addr - b)) u.n else data.take u.n
            | none => data.take u.n
          s.modUnit op i fun u => { u with st := .done, req := none, got := if (m.kindOf u).acc == .write then [] else got }
    | _, _ => s

/-- The word of a waitc arrives over a link (R214). -/
def State.settleWaitc (s : State) (gid slot : Nat) (res : Sum Nat (List Byte)) : State :=
  match s.splitRun gid slot with
  | none => s
  | some r =>
    match r.sp.st with
    | .blocked (.waitc d va thr none) =>
      match res with
      | .inl cause =>
        match r.wholeCause s cause va with
        | .next s1 => s1
        | _ => s
      | .inr data =>
        let c : DWord := BitVec.ofNat 64 (leNat (data.take 8))
        if c.toInt ≤ thr.toInt then
          ((s.acquireL1 r.t.core r.t.asid 1 4).setGroup gid
            ((r.g.setS d c).setSplit slot { r.sp with st := .ready, doom := [] })).settle gid
        else s
    | _ => s

/-- Bytes of a kernel's code arrive (R33). -/
def Kernel.takeCode (k : Kernel) (base sec : Nat) (data : List Byte) : Kernel :=
  let old := ((k.code.find? fun e => e.1 == base).map Prod.snd).getD []
  { k with code := (k.code.filter fun e => e.1 != base) ++ [(base, old.writeN sec (data.take 64))],
           codeHave := k.codeHave ++ [sec] }

/-- An outbound request is over: its answer's data, or a cause (R398). -/
def State.settleRequest (s : State) (q : OutReq) (res : Sum Nat (List Byte)) : State :=
  match q.purpose with
  | .access op i => s.settleAccess op i res
  | .waitc gid slot => s.settleWaitc gid slot res
  | .counter kid =>
    match res, dget s.kernels kid with
    | .inl c, some k => s.logFault k.asid (s.unitRecord (k.stepSrc.getD (s.stepSource k)) k.asid c 8 (k.field 191 128))
    | _, _ => s
  | .fetch kid va _ =>
    match res with
    | .inl c => s.modKernel kid fun k => { k with codeFail := k.codeFail ++ [(va, c)] }
    | .inr d =>
      let base := ((dget s.kernels kid).bind fun k => (s.pageAt k.asid va).map fun e => e.2.1).getD va
      s.modKernel kid fun k => k.takeCode base va d
  | .edge kid va round =>
    s.modKernel kid fun k =>
      if k.edgeRound != round then k
      else
        match res with
        | .inl c => { k with edgeFail := k.edgeFail ++ [(va, c)] }
        | .inr d => { k with edgeHave := dset k.edgeHave va (BitVec.ofNat 64 (leNat (d.take 8))) }
  | .xfer tag va =>
    match res with
    | .inl _ => (s.modXfer tag fun x => { x with left := x.left - 1, bad := true }).goXfer tag
    | .inr d =>
      (s.modXfer tag fun x =>
        { x with left := x.left - 1, got := (d.zipIdx).foldl (fun m (b, i) => dset m (va + i) b) x.got }).goXfer tag
  | .inbound port tag =>
    match res with
    | .inl c =>
      match (s.port port).inb.find? fun x => x.tag == tag with
      | some x =>
        match dget s.pk.windows x.window with
        | some w => (s.logInbound w.asid c (2 ^ x.acc.bit) (w.base + x.offset)).answerInbound port tag .refused
        | none => s.answerInbound port tag .refused
      | none => s
    | .inr d =>
      match (s.port port).inb.find? fun x => x.tag == tag with
      | some x =>
        let done := (dget s.pk.windows x.window).map fun w => (tag, w.asid, w.base + x.offset, 2 ^ x.acc.bit)
        (s.modPort port fun x => { x with performed := x.performed ++ done.toList }).answerInbound port tag (.ok d)
      | none => s

/-- REMOTE_ANSWER: the answer to an outbound request arrives within the port's timeout, or too late and is discarded (R397, R398). -/
def execRemoteAnswer (port tag : Nat) (answer : Answer) (s : State) : Out :=
  let x := s.port port
  match x.out.find? fun q => q.tag == tag with
  | none => if tag < x.nextTag then .next (s.modPort port fun x => { x with late := x.late + 1 }) else .refused .notEnabled
  | some q =>
    if q.sentAt + x.timeoutUs * 1000 < s.pk.gts then .refused .notEnabled else
    let s1 := s.modPort port fun x => { x with out := x.out.filter fun q => q.tag != tag }
    match answer with
    | .ok data => .next ((s1.modPort port fun x => { x with answered := x.answered + 1 }).settleRequest q (.inr data))
    | .refused =>
      .next ((s1.modPort port fun x => { x with faulted := x.faulted + 1 }).settleRequest q (.inl causeRemoteFault))

/-- REMOTE_TIMEOUT_EXPIRY: no answer within the port's timeout: the initiator takes REMOTE_TIMEOUT and sends a cancel
(R398). -/
def execRemoteTimeoutExpiry (port tag : Nat) (s : State) : Out :=
  let x := s.port port
  match x.out.find? fun q => q.tag == tag with
  | none => .refused .notEnabled
  | some q =>
    if s.pk.gts < q.sentAt + x.timeoutUs * 1000 then .refused .notEnabled
    else
      let s1 := s.modPort port fun x =>
        { x with out := x.out.filter fun q => q.tag != tag, timedOut := x.timedOut + 1, outbox := x.outbox ++ [.cancel tag] }
      .next (s1.settleRequest q (.inl causeRemoteTimeout))

/-- A port enters FAILED: every request in flight on it takes REMOTE_TIMEOUT at once (R398). -/
def State.failPort (s : State) (port : Nat) : State :=
  let x := s.port port
  let s1 := s.modPort port fun x =>
    { x with st := .failed, out := [], timedOut := x.timedOut + x.out.length, since := s.pk.gts, attested := [], asks := [] }
  x.out.foldl (fun s q => s.settleRequest q (.inl causeRemoteTimeout)) s1

/-! ### States of a port (R393, R394) -/

/-- LINK_TRAINING_END: training ends with some lanes trained, and the peer's TMASTER is known (log 14); fewer than 2 count
only once 100 ms have passed, and none that are trained later do (R393). On
entry to ATTESTING the port sends a nonce, a free value (R394, log 13). -/
def execLinkTrainingEnd (port lanes : Nat) (peerTmaster : Bool) (s : State) : Out :=
  let x := s.port port
  let ended := x.since + 100000000 ≤ s.pk.gts
  let late := x.since + 100000000 < s.pk.gts
  if x.st != .training || 8 < lanes then .refused .notEnabled
  else if 2 ≤ lanes && !late then
    let nonce := leBytes 32 (Config.freeNat s.freeCtr)
    .next ((s.modPort port fun x =>
      { x with st := .attesting, lanes := lanes, peerTmaster := peerTmaster, since := s.pk.gts, nonce := nonce,
               attested := [], asks := [], outbox := x.outbox ++ [.nonce none nonce] }).useFree)
  else if ended then
    .next (s.modPort port fun x => { x with st := .down, lanes := 0, since := s.pk.gts, failures := x.failures + 1 })
  else .refused .notEnabled

/-- The device answers a peer's nonce: its key, its measurement and architecture level, and the signature over the nonce and these
(R394, log 13). -/
def State.answerNonce (s : State) (port : Nat) (nonce : List Byte) : Out :=
  let x := s.port port
  if x.st != .attesting && x.st != .up && x.st != .degraded then .refused .notEnabled
  else
    let report := fit 32 s.pk.measurement ++ [Config.architectureLevel]
    let sig := fit 2420 (Config.attestSign (sha3 (nonce ++ Config.deviceKey ++ report)))
    .next (s.modPort port fun x => { x with outbox := x.outbox ++ [.attest Config.deviceKey report sig] })

/-- A peer's signature verifies, and its key is trusted (R394). -/
def State.verifies (s : State) (nonce key report sig : List Byte) : Bool :=
  mldsaVerify key (sha3 (nonce ++ key ++ report)) sig && s.pk.trust.contains (sha3 key)

/-- The attestation of a peer behind a switch is over: its requests are served, or refused (R394, R395). -/
def State.endAsk (s : State) (port : Nat) (a : PeerAsk) (ok : Bool) : State :=
  let s1 := s.modPort port fun x =>
    { x with asks := x.asks.erase a, attested := if ok then x.attested ++ [a.peer] else x.attested }
  a.tags.foldl (fun s t =>
    if !((s.port port).inb.any fun q => q.tag == t) then s
    else if ok then s.serveInbound port t
    else s.answerInbound port t .refused) s1

/-- ATTESTATION_ANSWER: the peer is verified, or the port fails, and its hash is recorded; or a peer behind a switch is attested end to
end (R393, R394). -/
def execAttestationAnswer (port : Nat) (key report sig : List Byte) (s : State) : Out :=
  let x := s.port port
  let hash := sha3 key
  if x.st == .attesting then
    if x.since + 100000000 ≤ s.pk.gts then .refused .notEnabled
    else
      let s1 := s.modPort port fun x => { x with peer := hash }
      if s.verifies x.nonce key report sig then
        .next (s1.modPort port fun x =>
          { x with st := if x.lanes = 8 then .up else .degraded, since := s.pk.gts, alignedAt := s.pk.gts,
                   delay := Config.linkDelay port })
      else .next (s1.failPort port)
  else
    match x.asks.find? fun a => a.peer == hash && s.pk.gts < a.since + 100000000 with
    | some a => .next (s.endAsk port a (s.verifies a.nonce key report sig))
    | none => .refused .notEnabled

/-- ATTESTATION_TIMEOUT: no answer within 100 ms (R393, R394). -/
def execAttestationTimeout (port : Nat) (s : State) : Out :=
  let x := s.port port
  if x.st == .attesting && x.since + 100000000 ≤ s.pk.gts then .next (s.failPort port)
  else
    match x.asks.find? fun a => a.since + 100000000 ≤ s.pk.gts with
    | some a => .next (s.endAsk port a false)
    | none => .refused .notEnabled

/-- LANE_LOSS: a lane in service is lost (R393, R398). -/
def execLaneLoss (port : Nat) (s : State) : Out :=
  let x := s.port port
  if (x.st != .up && x.st != .degraded) || x.lanes = 0 then .refused .notEnabled
  else
    let s1 := s.modPort port fun x => { x with lanes := x.lanes - 1, st := .degraded }
    if 2 ≤ x.lanes - 1 then .next s1 else .next (s1.failPort port)

/-- LANE_RETRAIN: retraining restores all 8 lanes (R393). -/
def execLaneRetrain (port : Nat) (s : State) : Out :=
  if (s.port port).st == .degraded then .next (s.modPort port fun x => { x with st := .up, lanes := 8 })
  else .refused .notEnabled

/-- LINK_DRAIN_DONE: every outbound request is answered or timed out (R393). -/
def execLinkDrainDone (port : Nat) (s : State) : Out :=
  let x := s.port port
  if x.st == .draining && x.out.isEmpty then
    .next (s.modPort port fun x => { x with st := .down, since := s.pk.gts, attested := [], asks := [] })
  else .refused .notEnabled

/-! ### Inbound requests (R395, R396, R398) -/

/-- The window grants a request: the peer, the kind, and the range (R395). -/
def ExportWin.grants (w : ExportWin) (q : InReq) (peer : List Byte) : Bool :=
  w.closing.isNone && w.peer == peer && q.offset + q.size ≤ w.size &&
  match q.kind with
  | .read => w.r
  | .write => w.w
  | .atomic _ => w.a

/-- A request of a peer behind a switch that is not attested yet waits for that, which its first request begins with a nonce, a free
value (R394, log 13). -/
def State.firstUse (s : State) (port : Nat) (q : InReq) (peer : List Byte) : State :=
  let s1 := s.modPort port fun x => { x with inb := x.inb ++ [{ q with waiting := true }] }
  if (s.port port).asks.any fun a => a.peer == peer then
    s1.modPort port fun x =>
      { x with asks := x.asks.map fun a => if a.peer == peer then { a with tags := a.tags ++ [q.tag] } else a }
  else
    let nonce := leBytes 32 (Config.freeNat s.freeCtr)
    (s1.modPort port fun x =>
      { x with asks := x.asks ++ [⟨peer, nonce, s.pk.gts, [q.tag]⟩], outbox := x.outbox ++ [.nonce (some peer) nonce] }).useFree

/-- INBOUND_REQUEST: a request is refused, logged as late where its cancel came first, or accepted and served, once its peer is attested
(R394, R395, R396, R398). -/
def execInboundRequest (port tag window offset : Nat) (peer : List Byte) (kind : ReqKind) (data : List Byte) (s : State) :
    Out :=
  let x := s.port port
  let q : InReq := ⟨tag, window, offset, kind, data, false⟩
  if (x.st != .up && x.st != .degraded && x.st != .draining) || x.inb.any fun y => y.tag == tag then .refused .notEnabled
  else
    match dget s.pk.windows window with
    | none => .next (s.answerInbound port tag .refused)
    | some w =>
      if !w.grants q peer then .next (s.answerInbound port tag .refused)
      else if x.cancelled.contains tag then
        .next ((s.logInbound w.asid causeRemoteTimeout (2 ^ q.acc.bit) (w.base + offset)).modPort port fun x =>
          { x with cancelled := x.cancelled.filter (· != tag) })
      else if x.peer == peer || x.attested.contains peer then
        .next ((s.modPort port fun x => { x with inb := x.inb ++ [q] }).serveInbound port tag)
      else .next (s.firstUse port q peer)

/-- A waiter leaves every page. -/
def State.dropWaiter (s : State) (w : Waiter) : State :=
  { s with ctxs := s.ctxs.map fun e =>
    (e.1, { e.2 with pages := e.2.pages.map fun q => (q.1, { q.2 with waiters := q.2.waiters.filter (· != w), hold := q.2.hold.filter (· != w) }) }) }

/-- A request that was passed on to another peer is taken back there, with a cancel of its own (R398). -/
def State.takeBack (s : State) (port tag : Nat) : State :=
  { s with ports := s.ports.map fun e =>
      match e.2.out.find? fun q => q.purpose == .inbound port tag with
      | some q => (e.1, { e.2 with out := e.2.out.filter (fun y => y.tag != q.tag), outbox := e.2.outbox ++ [.cancel q.tag] })
      | none => e }

/-- CANCEL_ARRIVAL: a cancel reaches the target: the request was performed, and a late arrival is logged; or it is never
performed, and is logged if it has come or comes later (R398). -/
def execCancelArrival (port tag : Nat) (s : State) : Out :=
  let x := s.port port
  match x.inb.find? fun q => q.tag == tag, x.performed.find? fun e => e.1 == tag with
  | some q, _ =>
    let s1 := match dget s.pk.windows q.window with
      | some w => s.logInbound w.asid causeRemoteTimeout (2 ^ q.acc.bit) (w.base + q.offset)
      | none => s
    .next (((s1.takeBack port tag).dropWaiter (.inbound port tag)).endInbound port tag)
  | none, some (_, asid, va, acc) =>
    .next ((s.logInbound asid causeRemoteTimeout acc va).modPort port fun x =>
      { x with performed := x.performed.filter fun e => e.1 != tag })
  | none, none => .next (s.modPort port fun x => { x with cancelled := x.cancelled ++ [tag] })

/-! ### Time across packages (R399) -/

/-- One byte string comes before another of its length, first byte first. -/
def bytesBelow : List Byte → List Byte → Bool
  | a :: as, b :: bs => a.toNat < b.toNat || (a == b && bytesBelow as bs)
  | _, _ => false

/-- The package leads on a port (R399). -/
def State.leads (s : State) (port : Nat) : Bool :=
  let x := s.port port
  if x.tmaster != x.peerTmaster then x.tmaster else bytesBelow (sha3 Config.deviceKey) x.peer

/-- The port carries traffic. -/
def State.portServes (s : State) (port : Nat) : Bool := (s.port port).st == .up || (s.port port).st == .degraded

/-- TIME_ALIGN_SEND: each 1,048,576 ns the leader sends its time stamp and the link's one-way delay (R399). -/
def execTimeAlignSend (port : Nat) (s : State) : Out :=
  let x := s.port port
  if s.portServes port && s.leads port && x.alignedAt + 1048576 ≤ s.pk.gts then
    .next (s.modPort port fun x => { x with alignedAt := s.pk.gts, outbox := x.outbox ++ [.time s.pk.gts x.delay] })
  else .refused .notEnabled

/-- TIME_ALIGN_MESSAGE: a follower takes over the leader's time when behind it, and counts at half rate when ahead; of
several ports it follows the lowest (R399, R18). -/
def execTimeAlignMessage (port gts delay : Nat) (s : State) : Out :=
  if !s.portServes port then .refused .notEnabled
  else
    let follows := (List.range 16).find? fun p => s.portServes p && !s.leads p
    if follows != some port then .next s
    else
      let now := gts + delay
      if s.pk.gts < now then .next { s with pk := { s.pk with gts := now % 2 ^ 64, slowNs := 0 } }
      else .next { s with pk := { s.pk with slowNs := 2 * (s.pk.gts - now) } }

end Sys2Proof.Machine
end

