-- ==== Sys2Proof/Machine/Kernels.lean ====
section
/-!
DEFINITION. Kernels and placement (06_queues.md R113, R114; 07_kernels.md R115 to R132; 08_groups.md R156 to R160):
readiness, taking records, placing and resuming teams, making room, and the ends of teams and kernels.
-/
namespace Sys2Proof.Machine

/-! ### Readiness (R117 to R120, R384) -/

/-- The context's queues, entries and teams are served (R98, R113, R127). -/
def State.served (s : State) (asid : Nat) : Bool :=
  ((dget s.ctxs asid).map fun c => c.st == .active || (c.st == .draining && !c.cancel)).getD false

/-- EDGE_FAILED (R384). -/
def causeEdgeFailed : Nat := 10
/-- BAD_EDGE (R384). -/
def causeBadEdge : Nat := 11

/-- A record of a distributor (R259, R384). -/
def State.distRecord (s : State) (cluster asid cause va : Nat) : FaultRecord :=
  ⟨512 + cluster, 2 ^ 32 - 1, false, cause, 1, 0, asid, 0, s.pk.gts, va⟩

/-- What a read of a word by a distributor comes to. -/
inductive WordRead where
  | word (v : DWord)
  /-- Not yet: a peer has not answered. -/
  | wait
  /-- Its page is not present. -/
  | absent
  | fatal (cause : Nat)

/-- What reads of several words come to. -/
inductive WordsRead where
  | words (vs : List DWord)
  /-- Not yet, with the addresses whose pages are not present. -/
  | wait (absent : List Nat)
  | fatal (cause va : Nat)

/-- A distributor finds a page absent: it raises a record, one to a page at an evaluation (R119, R258, log 18). -/
def State.raiseAbsent (s : State) (cluster asid va : Nat) : State :=
  match s.pageAt asid va with
  | some (a, b, _) =>
    s.toRiddle cluster (pageId a b) { s.distRecord cluster asid causeNotPresent va with sc := s.classAt asid va }
  | none => s

/-- A distributor finds the pages of several words absent. -/
def State.raiseAll (s : State) (cluster asid : Nat) (vas : List Nat) : State :=
  let page (va : Nat) : Option Nat := (s.pageAt asid va).map fun e => pageId e.1 e.2.1
  let firsts := vas.foldl (fun (l : List Nat) va => if l.any fun x => page x == page va then l else l ++ [va]) []
  firsts.foldl (fun s va => s.raiseAbsent cluster asid va) s

/-- The distributor of a cluster reads the word at an address for a kernel, behind the copy of a page on the move; `keep` says that a
word brought over a link is kept (R117, R119, R256, R263). -/
def State.distRead (s : State) (cluster kid : Nat) (k : Kernel) (va : Nat) (keep : Bool) : State × WordRead :=
  let c := s.causeAt k.asid .token va .read
  if c == causeNotPresent then (s, .absent)
  else if c != 0 then (s, .fatal c)
  else
    match s.pageAt k.asid va with
    | none => (s, .fatal causeNotMapped)
    | some (a, b, p) =>
      if s.holds p false va 8 then (s, .wait)
      else if p.st == .remote then
        match dget k.edgeHave va, k.edgeFail.find? fun e => e.1 == va with
        | some w, _ =>
          (if keep then s else s.modKernel kid fun k => { k with edgeHave := ddel k.edgeHave va }, .word w)
        | none, some (_, c) => (s, .fatal c)
        | none, none =>
          if (List.range (k.edgeRound + 1)).any fun n => s.asked (.edge kid va n) then (s, .wait)
          else
            match s.sendTo p (va - b) .read (leBytes 8 0) (.edge kid va k.edgeRound) with
            | some (s1, _) => (s1, .wait)
            | none => (s, .fatal causeRemoteTimeout)
      else (s.deviceTouch cluster k.asid va a b p false, .word (BitVec.ofNat 64 (leNat (s.vbytes k.asid va 8))))

/-- Read several words in order; the first fatal cause ends it, with its address. -/
def State.distReads (s : State) (cluster kid : Nat) (k : Kernel) : List Nat → State × WordsRead
  | [] => (s, .words [])
  | va :: vas =>
    match s.distRead cluster kid k va true with
    | (s1, .fatal c) => (s1, .fatal c va)
    | (s1, .word w) =>
      match State.distReads s1 cluster kid k vas with
      | (s2, .words ws) => (s2, .words (w :: ws))
      | r => r
    | (s1, r) =>
      let mine := match r with
        | .absent => [va]
        | _ => []
      match State.distReads s1 cluster kid k vas with
      | (s2, .words _) => (s2, .wait mine)
      | (s2, .wait l) => (s2, .wait (mine ++ l))
      | r => r

/-- An edge from its twelve words, or none where it breaks R118. -/
def parseEdge (ws : List DWord) : Option Edge :=
  let w (i : Nat) : DWord := ws.getD i 0
  let f := w 2
  let nreg := (f.extractLsb' 2 3).toNat
  let region (i : Nat) : Nat × Nat := ((w (4 + 2 * i)).toNat, (w (5 + 2 * i)).toNat)
  let okRegion (i : Nat) : Bool :=
    if i < nreg then canonical (region i).1 && 1 ≤ (region i).2 && (region i).2 ≤ 2 ^ 56 else region i == (0, 0)
  if canonical (w 0).toNat && (w 0).toNat % 8 == 0 && nreg ≤ 4 && f.extractLsb' 5 59 == 0 && w 3 == 0
      && (List.range 4).all okRegion then
    some ⟨(w 0).toNat, w 1, f.getLsbD 0, f.getLsbD 1, (List.range nreg).map region⟩
  else none

/-- The first edge of a list that breaks R118, by its index. -/
def badEdge (ws : List DWord) (n : Nat) : Option Nat :=
  (List.range n).find? fun i => (parseEdge ((ws.drop (12 * i)).take 12)).isNone

/-- What an evaluation finds (R116, R117). -/
inductive Verdict where
  | ready
  | notYet
  | cancel (cause va : Nat)
  deriving DecidableEq

/-- The next evaluation reads everything again: what this one has brought, or still asks of a peer, is of no use to it (R117, R119). -/
def Kernel.readAgain (k : Kernel) : Kernel := { k with edgeHave := [], edgeRound := k.edgeRound + 1 }

/-- Read the edge list of a kernel whole (R117). An evaluation that finds a page of it not present keeps nothing of what it has
read. -/
def State.readEdges (s : State) (cluster kid : Nat) (k : Kernel) : State × Sum (Nat × Nat) (Option (List Edge)) :=
  let n := k.field 595 592
  let base := k.field 591 528
  match k.edges with
  | some es => (s, .inr (some es))
  | none =>
    if n = 0 then (s, .inr (some []))
    else if base % 8 != 0 then (s, .inl (causeBadEdge, base))
    else
      match s.distReads cluster kid k ((List.range (12 * n)).map fun i => base + 8 * i) with
      | (s1, .fatal c va) => (s1, .inl (c, va))
      | (s1, .wait []) => (s1, .inr none)
      | (s1, .wait vas) => ((s1.raiseAll cluster k.asid vas).modKernel kid Kernel.readAgain, .inr none)
      | (s1, .words ws) =>
        match badEdge ws n with
        | some i => (s1, .inl (causeBadEdge, base + 96 * i))
        | none =>
          let es := (List.range n).filterMap fun i => parseEdge ((ws.drop (12 * i)).take 12)
          (s1.modKernel kid fun k => { k with edges := some es, edgeHave := [] }, .inr (some es))

/-- Judge the edges in list order: the first fatal read or failed edge cancels (R117, R119). -/
def State.judge (s : State) (cluster kid : Nat) (k : Kernel) : List Edge → State × Verdict
  | [] => (s, .ready)
  | e :: es =>
    let later (s : State) : State × Verdict :=
      match State.judge s cluster kid k es with
      | (s2, .cancel c va) => (s2, .cancel c va)
      | (s2, _) => (s2, .notYet)
    match s.distRead cluster kid k e.waitVa false with
    | (s1, .fatal c) => (s1, .cancel c e.waitVa)
    | (s1, .absent) => later ((s1.raiseAbsent cluster k.asid e.waitVa).modKernel kid Kernel.readAgain)
    | (s1, .wait) => later s1
    | (s1, .word c) =>
      let sat := decide (c.toInt ≤ e.waitVal.toInt)
      if sat && c.getLsbD 63 && !e.ignFail then (s1, .cancel causeEdgeFailed e.waitVa)
      else
        match State.judge s1 cluster kid k es with
        | (s2, .ready) => (s2, if sat then .ready else .notYet)
        | (s2, v) => (s2, v)

/-- A readiness evaluation of an ENQUEUED kernel (R117). -/
def State.evaluate (s : State) (cluster kid : Nat) (k : Kernel) : State × Verdict :=
  match s.readEdges cluster kid k with
  | (s1, .inl (c, va)) => (s1, .cancel c va)
  | (s1, .inr none) => (s1, .notYet)
  | (s1, .inr (some es)) =>
    match s1.judge cluster kid ((dget s1.kernels kid).getD k) es with
    | (s2, .ready) => (s2, if k.field 255 192 ≤ s2.pk.gts then .ready else .notYet)
    | r => r

/-- Clusters of a CLMASK. -/
def Kernel.inMask (k : Kernel) (core : Nat) : Bool := (k.field 359 352).testBit (clusterOf core)

/-- The acquire of a kernel that became READY: lines of its context in the L1s of CLMASK, those of the edges' regions or,
with ALL, every one (R120). -/
def State.kernelAcquire (s : State) (k : Kernel) (es : List Edge) : State :=
  let hit (l : L1Line) : Bool :=
    s.ownLine k.asid l && es.any fun e => e.all || e.regions.any fun r => l.va < r.1 + r.2 && r.1 < l.va + 64
  { s with cores := s.cores.map fun c =>
    if k.inMask c.1 then (c.1, { c.2 with l1 := c.2.l1.filter fun l => !hit l }) else c }

/-- The code of a context as it stands now: its pages that the package holds or reaches as its slow tier, whether X is set by now or
only later (R33). -/
def State.codeNow (s : State) (asid : Nat) : List (Nat × Memory) :=
  let spaces := asid :: ((dget s.ctxs asid).map fun c => c.attach.map Attach.shared).getD []
  spaces.flatMap fun a =>
    match dget s.ctxs a with
    | none => []
    | some c => c.pages.filterMap fun e => s.codeOf e.1 e.2

/-! ### Taking records (R113, R114, R129) -/

/-- A kernel is cancelled at an evaluation, with its cause logged (R116, R117, R384). -/
def State.cancelAt (s : State) (cluster kid : Nat) (k : Kernel) (cause va : Nat) : State :=
  let s1 := (s.cancelKernel kid).logFault k.asid (s.distRecord cluster k.asid cause va)
  match k.src with
  | .pending t => s1.entryLeft t
  | .segment .. => s1

/-- A READY kernel is taken: it leaves where it was held and enters DISPATCHING, its pointer at the lowest core (R114,
R116, R120, R124). -/
def State.takeKernel (s : State) (cluster kid : Nat) (k : Kernel) : State :=
  let es := ((dget s.kernels kid).bind Kernel.edges).getD []
  let s1 := (s.kernelAcquire k es).dropRecord kid
  let s2 := s1.modKernel kid fun k =>
    { k with st := .dispatching, dist := some cluster, ptr := 0, next := 0, code := s1.codeNow k.asid }
  let d := s2.dist cluster
  let s3 : State := { s2 with dists := dset s2.dists cluster { d with kernels := d.kernels ++ [kid] } }
  match k.src with
  | .pending t => s3.entryLeft t
  | .segment a q _ =>
    s3.modCtx a fun c => { c with queues := dmod c.queues q fun q => { q with taken := q.taken + 1 } }

/-- The pending entries a distributor serves, in the order of its search (R129). -/
def State.pendingOf (s : State) (cluster : Nat) : List Nat :=
  let ts := sortOn (fun e => e.2.age.toNat) (s.teams.filter fun e =>
    clusterOf e.2.core == cluster && s.served e.2.asid && e.2.st != .halting && !e.2.pend.isEmpty)
  ts.flatMap fun e => e.2.pend

/-- A place in a distributor's scan: address space, queue, slice. -/
abbrev Place := Nat × Nat × Nat

/-- One place comes before another. -/
def placeLe (x y : Place) : Bool :=
  x.1 < y.1 || (x.1 == y.1 && (x.2.1 < y.2.1 || (x.2.1 == y.2.1 && x.2.2 ≤ y.2.2)))

/-- The heads of the segments of a cluster at a priority, in order (R113). -/
def State.heads (s : State) (cluster prio : Nat) : List (Place × Nat) :=
  s.ctxs.flatMap fun e =>
    if s.served e.1 then
      e.2.queues.flatMap fun q =>
        if q.2.prio == prio && (q.2.st == .active || q.2.st == .draining) then
          q.2.segs.filterMap fun g =>
            match g.2 with
            | kid :: _ => if g.1 / 32 == cluster then some ((e.1, q.1, g.1), kid) else none
            | [] => none
        else []
    else []

/-- Round from a pointer. -/
def rotateFrom (ptr : Option Place) (l : List (Place × Nat)) : List (Place × Nat) :=
  match ptr with
  | none => l
  | some p => (l.filter fun x => placeLe p x.1) ++ l.filter fun x => !placeLe p x.1

/-- The cycle of the fixed clock domains, of 600 MHz, at a time stamp (R17, R19, log 36). -/
def fixedCycle (gts : Nat) : Nat := gts * 3 / 5

/-- A distributor has taken a record from a segment in this cycle: another that reaches its head in the cycle searches on as though
the segment were empty (R114, log 36). -/
def State.takenNow (s : State) (p : Place) : Bool :=
  s.dists.any fun e => e.2.searchedAt == some (fixedCycle s.pk.gts) && e.2.took == some p

/-- The candidates of a search in order: entries, then heads by priority and distance, each head with where the pointer
goes (R113, R114, R129). -/
def State.searchOrder (s : State) (cluster : Nat) : List (Nat × Option (Nat × Place)) :=
  let d := s.dist cluster
  ((s.pendingOf cluster).map fun k => (k, none)) ++
    (List.range 4).flatMap fun p => (List.range 8).flatMap fun k =>
      (rotateFrom (dget d.ptr (8 * p + k)) ((s.heads ((cluster + k) % 8) p).filter fun x => !s.takenNow x.1)).map fun x =>
        (x.2, some (8 * p + k, (x.1.1, x.1.2.1, x.1.2.2 + 1)))

/-- Walk the candidates: the first READY one is taken; cancelled ones leave, and the record behind one is evaluated at the next search
(log 36). The flag says that something happened. -/
def State.searchGo (s : State) (cluster : Nat) (moved : Bool) : List (Nat × Option (Nat × Place)) → State × Bool
  | [] => (s, moved)
  | (kid, ptr) :: rest =>
    match dget s.kernels kid with
    | none => State.searchGo s cluster moved rest
    | some k =>
      if k.st != .enqueued then State.searchGo s cluster moved rest
      else
        match s.evaluate cluster kid k with
        | (s1, .ready) =>
          let s2 := s1.takeKernel cluster kid k
          let d := s2.dist cluster
          (match ptr with
            | some (i, p) =>
              { s2 with dists := dset s2.dists cluster { d with ptr := dset d.ptr i p, took := some (p.1, p.2.1, p.2.2 - 1) } }
            | none => s2, true)
        | (s1, .cancel c va) => State.searchGo (s1.cancelAt cluster kid k c va) cluster true rest
        | (s1, .notYet) =>
          let m := s1.clusters != s.clusters || s1.ports != s.ports || s1.kernels != s.kernels
          State.searchGo s1 cluster (moved || m) rest

/-- A distributor begins a search: it has taken nothing yet. -/
def State.beginSearch (s : State) (cluster : Nat) : State :=
  { s with dists := dset s.dists cluster { s.dist cluster with took := none } }

/-- The distributor has searched in this cycle. -/
def State.searchedNow (s : State) (cluster : Nat) : State :=
  let d := s.dist cluster
  { s with dists := dset s.dists cluster { d with searchedAt := some (fixedCycle s.pk.gts) } }

/-- DISTRIBUTOR_SEARCH: a distributor with fewer than four kernels in DISPATCHING searches pending entries and segments for
a READY record and takes it, once per cycle (R113, R114, R117, R129). It is no step while a search would change nothing. -/
def execDistributorSearch (cluster : Nat) (s : State) : Out :=
  let d := s.dist cluster
  if 8 ≤ cluster || 4 ≤ d.kernels.length || d.searchedAt == some (fixedCycle s.pk.gts) then .refused .notEnabled
  else
    match (s.beginSearch cluster).searchGo cluster false (s.searchOrder cluster) with
    | (s1, true) => .next (s1.searchedNow cluster)
    | (_, false) => .refused .notEnabled

/-! ### Resources (R125, R159) -/

/-- What a team needs on a core. -/
structure Need where
  asid : Nat
  slots : Nat
  store : Nat
  gran : Nat
  nbar : Nat
  banks : Nat
  arena : Nat

/-- A row of R125, or a failed unit (R404). -/
inductive Short where
  | slots
  | store
  | scratch
  | barriers
  | banks
  | arena
  | unit
  deriving DecidableEq

/-- Teams placed on a core, away or not. -/
def State.teamsOn (s : State) (core : Nat) : List (Nat × Team) := s.teams.filter fun e => e.2.core == core && e.2.st != .retired

/-- The register-store need of a team's kernel (R125). -/
def State.imageOf (s : State) (t : Team) : Nat := ((dget s.kernels t.kernel).map Kernel.image).getD 0

/-- Barrier entries of a team that are in its core's table (R125, R281). -/
def State.residentBars (s : State) (t : Team) : Nat := s.nbarOf t - (t.barriers.filter fun e => e.2.spilled).length

/-- Granule i of a core is held by a window (R125, R158). -/
def State.granuleHeld (s : State) (core i : Nat) : Bool :=
  (s.teamsOn core).any fun e => e.2.windowIn && e.2.wbase ≤ 4096 * i && 4096 * i < e.2.wbase + e.2.wsize

/-- The lowest run of free granules that is long enough (R125). -/
def State.freeRun (s : State) (core n : Nat) : Option Nat :=
  (List.range (385 - n)).find? fun i => (List.range n).all fun j => !s.granuleHeld core (i + j)

/-- FREE banks of a loom, ascending. -/
def Loom.freeBanks (l : Loom) : List Nat := (List.range 8).filter fun i => (dgetD l.banks i Bank.reset).st == .free

/-- The rows of R125 that fail on a core. A stood-down group of the core takes the next slot that frees there, before any team that
comes (R148). -/
def State.shortOf (s : State) (core : Nat) (n : Need) : List Short :=
  let on := s.teamsOn core
  let used := on.foldl (fun x e => if e.2.present then x + s.imageOf e.2 else x) 0
  let bars := on.foldl (fun x e => x + s.residentBars e.2) 0
  (if n.slots != 0 && ((s.slotsFree core).length < n.slots || s.standingBy core none) then [Short.slots] else [])
    ++ (if 262144 < used + n.store then [Short.store] else [])
    ++ (if n.gran != 0 && (s.freeRun core n.gran).isNone then [Short.scratch] else [])
    ++ (if 256 < bars + n.nbar then [Short.barriers] else [])
    ++ (if (s.loom (islandOf core)).freeBanks.length < n.banks then [Short.banks] else [])
    ++ (if !s.arenaFits n.asid n.arena then [Short.arena] else [])
    ++ (if s.unitFailed .core core || s.unitFailed .loom (islandOf core) then [Short.unit] else [])

/-- The cores of a kernel's CLMASK, ascending (R124). -/
def Kernel.cores (k : Kernel) : List Nat := (List.range Config.cores).filter k.inMask

/-- The need of a kernel's next team (R125). -/
def Kernel.need (k : Kernel) : Need :=
  ⟨k.asid, k.field 364 360 + 1, k.image, k.field 384 376, k.field 372 368, k.field 388 385, k.teamPart⟩

/-- Cores to try for a kernel's next team, from its pointer once around, each with the pointer after it (R124). -/
def Kernel.tries (k : Kernel) : List (Nat × Nat) :=
  let cs := k.cores
  let n := cs.length
  (List.range n).map fun i => (cs.getD ((k.ptr + i) % n) 0, (k.ptr + i + 1) % n)

/-- Groups of a team that need slots at a resumption (R159). -/
def State.resumeGroups (s : State) (tid : Nat) : List (Nat × Group) := (s.groupsOf tid).filter fun e => e.2.st == .live

/-- Banks a resuming team needs (R315). -/
def Team.banksDue (t : Team) : Nat :=
  t.recorded + (t.banks.filter fun b =>
    match b with
    | .evicted .. => true
    | _ => false).length

/-- The need of a resumption on a core (R159). -/
def State.resumeNeed (s : State) (tid : Nat) (t : Team) (core : Nat) : Need :=
  let slots := if t.restartDue then ((dget s.kernels t.kernel).map fun k => k.field 364 360 + 1).getD 0
    else (s.resumeGroups tid).length
  let bars := if core = t.core then s.nbarOf t - s.residentBars t else s.nbarOf t
  ⟨t.asid, slots, s.imageOf t, if t.windowIn then 0 else t.wsize / 4096, bars, t.banksDue, 0⟩

/-- The rows that fail for a resumption on a core. A team that is on a failed unit already is not stopped: it resumes on its own core
(R404). -/
def State.shortHere (s : State) (core tid : Nat) (t : Team) : List Short :=
  (s.shortOf core (s.resumeNeed tid t core)).filter fun x => !(x == .unit && core == t.core)

/-- The team owns banks, by name or reservation. -/
def State.ownsBanks (s : State) (tid : Nat) (t : Team) : Bool :=
  t.banks.any (fun b => b != .unbound) || t.recorded != 0
    || (s.loom (islandOf t.core)).banks.any fun e => e.2.team == tid && e.2.st != .free

/-- Cores to try for a resumption (R159); a team whose version holds sectors stays in its cluster (R361). -/
def State.resumeCores (s : State) (tid : Nat) (t : Team) : List Nat :=
  if t.windowIn then [t.core]
  else
    let cs := ((dget s.kernels t.kernel).map Kernel.cores).getD []
    let round := t.core :: ((cs.filter fun c => t.core < c) ++ cs.filter fun c => c < t.core)
    if s.ownsBanks tid t then round.filter fun c => islandOf c == islandOf t.core
    else if !t.ver.sectors.isEmpty then round.filter fun c => clusterOf c == clusterOf t.core
    else round

/-- A blocked split's condition is met, so that a SWAPPED team may resume (R159, R160). -/
def Team.splitDue (t : Team) (sp : Split) : Bool :=
  match sp.st with
  | .ready => true
  | .blocked (.waitc _ _ _ met) => met.isSome
  | .blocked (.launch ..) => !t.forming && t.pend.length < 4
  | _ => false

/-- The team may resume (R137, R159). -/
def State.mayResume (s : State) (tid : Nat) (t : Team) : Bool :=
  s.served t.asid && !t.copyingOut && (!t.restartDue || t.releases == 0) &&
    (t.st == .preempted ||
      (t.st == .swapped && (t.restartDue || (s.groupsOf tid).any fun e => e.2.st == .live && e.2.splits.any t.splitDue)))

/-- Teams of a cluster that may resume, oldest first (R159). -/
def State.resumable (s : State) (cluster : Nat) : List (Nat × Team) :=
  sortOn (fun e => e.2.age.toNat) (s.teams.filter fun e => clusterOf e.2.core == cluster && s.mayResume e.1 e.2)

/-! ### Placing and resuming (R126, R127, R159) -/

/-- Reserve the n lowest FREE banks of a loom for a team (R312). -/
def State.reserveBanks (s : State) (loom tid n : Nat) : State :=
  let l := s.loom loom
  let bs := (l.freeBanks.take n).foldl (fun m i => dset m i { Bank.reset with st := .reserved, team := tid, kept := true }) l.banks
  { s with looms := dset s.looms loom { l with banks := bs } }

/-- A team as it is placed (R29, R126). -/
def newTeam (kid : Nat) (k : Kernel) (cluster core wbase gts : Nat) : Team :=
  { kernel := kid, asid := k.asid, lid := k.next, core := core, wbase := wbase, wsize := 4096 * k.field 384 376,
    age := BitVec.ofNat 64 (gts % 2 ^ 61 * 8 + cluster), restarts := 0, st := .running, versioned := k.field 365 365 == 1,
    windowIn := true, windowSaved := [], copyingOut := false, copyingIn := false, barriers := [], handles := [],
    banks := List.replicate 8 .unbound, recorded := 0, ver := Version.fresh, pend := [], pendLate := [], passes := 0,
    traps := [], faults := [], awaySince := 0, waitSince := none, restartDue := false, wounds := [], loomSnap := [],
    stopReq := false, releases := 0, dumpDue := false, startedAt := gts, cores := [core], dumped := false, offCore := false }

/-- The distributor has placed in this cycle. -/
def State.placedNow (s : State) (cluster : Nat) : State :=
  let d := s.dist cluster
  { s with dists := dset s.dists cluster { d with placedAt := some (fixedCycle s.pk.gts) } }

/-- Place the next team of a kernel on a core (R46, R126): its age, its team part, its window, its banks, its groups in the
lowest free slots. -/
def State.placeTeam (s : State) (cluster kid : Nat) (k : Kernel) (core ptr : Nat) : State :=
  let tid := s.nextId
  let off := (s.freeRun core (k.field 384 376)).getD 0
  let slots := (s.slotsFree core).take (k.field 364 360 + 1)
  let s1 : State := { s.bump with teams := dset s.teams tid (newTeam kid k cluster core (4096 * off) s.pk.gts) }
  let s2 := (s1.reserveBanks (islandOf core) tid (k.field 388 385)).enterTeam tid slots 0
  let last := k.next + 1 == k.teamsOf
  let s3 := s2.modKernel kid fun k =>
    { k with ptr := ptr, next := k.next + 1, arenaCounted := false, st := if last then .running else k.st }
  let d := s3.dist cluster
  let s4 : State := if last then
      { s3 with dists := dset s3.dists cluster { d with kernels := d.kernels.filter (· != kid) } }
    else s3
  s4.placedNow cluster

/-- Bind the EVICTED names of a team to FREE banks, lowest first, with their contents (R315). -/
def State.reloadBanks (s : State) (loom tid : Nat) (t : Team) : State :=
  ((List.range 8).foldl (fun s i =>
    match t.banks.getD i .unbound with
    | .evicted elems nan kept =>
      let l := s.loom loom
      match l.freeBanks with
      | b :: _ =>
        ({ s with looms := dset s.looms loom { l with banks := dset l.banks b ⟨.owned, tid, kept, elems, nan⟩ } } : State).modTeam
          tid fun t => { t with banks := t.banks.set i (.bound b) }
      | [] => s
    | _ => s) s)

/-- Register-store lines of a group's role: the scalar image and its granules (R159). -/
def Kernel.lines (k : Kernel) (role : Nat) : List Nat := List.range (k.granules role + 1)

/-- Groups of a resuming team take new slots, of those given; the slots of its ENDED groups have been given up (R148, R159). Whether
their lines are still in the register store is a free value (R159, log 5). The memory cap judges them as groups that have come
(R154). -/
def State.reseat (s : State) (tid core : Nat) (slots : List Nat) (k : Kernel) (gone : Bool) : State :=
  let gs := s.resumeGroups tid
  let s1 : State := { s with groups := s.groups.map fun e =>
    if e.2.team = tid then (e.1, { e.2 with core := core, extraSlot := e.2.extraSlot || e.2.st == .ended }) else e }
  (gs.zipIdx).foldl (fun s (e, i) =>
    let slot := slots.getD i 0
    let t := (dget s.teams tid)
    (s.modGroup e.1 fun g =>
      { g with slot := slot, core := core, toLoad := if gone then k.lines g.role else [], memOk := none }).trace core
        ((t.map Team.asid).getD 0) 10 slot 2 (((t.map Team.lid).getD 0) * 2 ^ 32 + e.2.grp * 2 ^ 26)) s1

/-- Resume a team on a core (R159): its window and spilled barrier entries come back, its banks are bound again, its groups
take slots; or it restarts where a wound met it while away (R137). On another core, lines of its ASID in the L1 there are
invalidated (R247). -/
def State.resumeTeam (s : State) (cluster tid : Nat) (t : Team) (k : Kernel) (core : Nat) : State :=
  let off := if t.windowIn then t.wbase else 4096 * (s.freeRun core (t.wsize / 4096)).getD 0
  let slots := s.slotsFree core
  let loads := !t.windowIn || t.banksDue != 0 || t.barriers.any fun e => e.2.spilled
  let key := scratchKey core off
  let s0 : State := if t.windowIn then s
    else { s with mem := t.windowSaved.foldl (fun m c => m.write (key + c.1) c.2) (s.mem.zero key t.wsize) }
  let s1 := (if core = t.core then s0 else s0.dropL1 core (s0.ownLine t.asid)).modTeam tid fun t =>
    { t with core := core, cores := if t.cores.contains core then t.cores else t.cores ++ [core],
             wbase := off, windowIn := true, windowSaved := [], stopReq := false, waitSince := none,
             copyingIn := loads, recorded := 0, offCore := false,
             barriers := t.barriers.map fun e => (e.1, { e.2 with spilled := false }) }
  let s2 := (s1.reloadBanks (islandOf core) tid t).reserveBanks (islandOf core) tid t.recorded
  let s3 :=
    if t.restartDue then
      (s2.modTeam tid fun t => { t with restartDue := false, restarts := min (t.restarts + 1) (2 ^ 32 - 1) }).enterTeam tid
        (slots.take (k.field 364 360 + 1)) 1
    else
      ((s2.reseat tid core slots k (Config.freeBool s2.freeCtr)).useFree.modTeam tid fun t => { t with st := .running })
  (s3.resumeLaunch tid).placedNow cluster

/-- The first resumable team of a cluster that finds a core. -/
def State.findResume (s : State) (cluster : Nat) : Option (Nat × Team × Nat) :=
  (s.resumable cluster).findSome? fun e =>
    ((s.resumeCores e.1 e.2).find? fun c => (s.shortHere c e.1 e.2).isEmpty).map fun c => (e.1, e.2, c)

/-- Kernels of a distributor that may place, in the order it took them (R127). -/
def State.placing (s : State) (cluster : Nat) : List (Nat × Kernel) :=
  (s.dist cluster).kernels.filterMap fun kid =>
    (dget s.kernels kid).bind fun k => if k.st == .dispatching && !k.trapped && s.served k.asid then some (kid, k) else none

/-- The first kernel of a distributor whose next team finds a core. -/
def State.findPlace (s : State) (cluster : Nat) : Option (Nat × Kernel × Nat × Nat) :=
  (s.placing cluster).findSome? fun e =>
    (e.2.tries.find? fun c => (s.shortOf c.1 e.2.need).isEmpty).map fun c => (e.1, e.2, c.1, c.2)

/-- The team is away from its core. -/
def Team.away (t : Team) : Bool := t.st == .preempted || t.st == .swapped

/-- The searches of a cluster that fail: each core tried with what it lacks (R124, R159). -/
def State.failures (s : State) (cluster : Nat) : List (Nat × List Short) :=
  ((s.resumable cluster).flatMap fun e => (s.resumeCores e.1 e.2).map fun c => (c, s.shortHere c e.1 e.2))
    ++ (s.placing cluster).flatMap fun e => e.2.tries.map fun c => (c.1, s.shortOf c.1 e.2.need)

/-- Some search fails on a core only for one resource. -/
def State.failsFor (s : State) (core : Nat) (x : Short) : Bool :=
  (List.range 8).any fun d => (s.failures d).any fun f => f.1 == core && f.2 == [x]

/-- The longest away of some teams. -/
def longestAway (ts : List (Nat × Team)) : Option (Nat × Team) :=
  ts.foldl (fun b e =>
    match b with
    | none => some e
    | some x => if e.2.awaySince < x.2.awaySince then some e else some x) none

/-- The team has work in its core's porter or its loom's queue. -/
def State.copying (s : State) (tid : Nat) (t : Team) : Bool :=
  (s.core t.core).porter.any (fun p => p.team == tid) || (s.core t.core).streams.any (fun x => x.2.team == tid)
    || (s.loom (islandOf t.core)).queue.any fun q => q.team == tid

/-- A copy-out to begin: a core that lacks only scratchpad holds the window of a team away, the longest away of them
(R158), none of a team that holds the token, or that has work in the porter (R306) or the loom (log 55). -/
def State.findCopyOut (s : State) (cluster : Nat) : Option Nat :=
  (s.failures cluster).findSome? fun f =>
    if f.2 != [Short.scratch] || ((s.teamsOn f.1).any fun e => e.2.copyingOut) then none
    else
      (longestAway ((s.teamsOn f.1).filter fun e =>
        e.2.away && e.2.windowIn && e.2.wsize != 0 && !s.exempt e.1 e.2 && !s.copying e.1 e.2)).map Prod.fst

/-- Kernels whose next team begins to wait for arena space (R93), of those offered up to the one that is placed. -/
def State.arenaWaits (s : State) (cluster : Nat) (placed : Option Nat) : List (Nat × Kernel) :=
  ((s.placing cluster).takeWhile fun e => some e.1 != placed).filter fun e =>
    !e.2.arenaCounted && !s.arenaFits e.2.asid e.2.teamPart

/-- ARENA_WAIT counts each team that begins to wait (R93). -/
def State.countWaits (s : State) (ks : List (Nat × Kernel)) : State :=
  ks.foldl (fun s e => (s.modKernel e.1 fun k => { k with arenaCounted := true }).modCtx e.2.asid fun c =>
    { c with arenaWait := c.arenaWait + 1 }) s

/-- DISTRIBUTOR_PLACE: a distributor resumes the oldest team that can, or places the next team of the first kernel that
finds a core; where a core lacks only scratchpad it has a window copied out (R124 to R127, R158, R159). -/
def execDistributorPlace (cluster : Nat) (s : State) : Out :=
  if 8 ≤ cluster || (s.dist cluster).placedAt == some (fixedCycle s.pk.gts) then .refused .notEnabled
  else
    match s.findResume cluster with
    | some (tid, t, core) =>
      match dget s.kernels t.kernel with
      | some k => .next (s.resumeTeam cluster tid t k core)
      | none => .refused .notEnabled
    | none =>
      match s.findPlace cluster with
      | some (kid, k, core, ptr) =>
        .next ((s.countWaits (s.arenaWaits cluster (some kid))).placeTeam cluster kid k core ptr)
      | none =>
        match s.arenaWaits cluster none, s.findCopyOut cluster with
        | e :: es, _ => .next (s.countWaits (e :: es))
        | [], some tid => .next (s.modTeam tid fun t => { t with copyingOut := true })
        | [], none => .refused .notEnabled

/-- An access to its own window that an operation of the team has still to make: the window does not leave before it (R157, R126). -/
def Op.inWindow (o : Op) : Bool :=
  match o.work with
  | .mem m => m.space == .window && m.units.any Access.waits
  | _ => false

/-- WINDOW_COPY_OUT_DONE: the window stands in the team part and its granules are free (R158); the accesses of its team to it that
were in flight have been performed (R157, R247). -/
def execWindowCopyOutDone (team : Nat) (s : State) : Out :=
  match dget s.teams team with
  | some t =>
    if !t.copyingOut || ((s.opsOf team).any fun e => e.2.inWindow) then .refused .notEnabled
    else
      let key := scratchKey t.core t.wbase
      let saved : Memory := (s.mem.filter fun c => key ≤ c.1 && c.1 < key + t.wsize).map fun c => (c.1 - key, c.2)
      .next (({ s with mem := s.mem.zero key t.wsize } : State).modTeam team fun t =>
        { t with copyingOut := false, windowIn := false, windowSaved := saved })
  | none => .refused .notEnabled

/-- WINDOW_COPY_IN_DONE: window, barrier entries and banks are back, and the team may issue (R159). -/
def execWindowCopyInDone (team : Nat) (s : State) : Out :=
  match dget s.teams team with
  | some t =>
    if t.copyingIn then .next (s.modTeam team fun t => { t with copyingIn := false }) else .refused .notEnabled
  | none => .refused .notEnabled

/-! ### Making room (R281, R315) -/

/-- Barrier entries of teams away from a core that may be spilled: team, register, last touch (R281). -/
def State.spillable (s : State) (core : Nat) : List (Nat × Nat × Nat) :=
  ((s.teamsOn core).filter fun e => e.2.away && !s.exempt e.1 e.2).flatMap fun e =>
    (List.range (s.nbarOf e.2)).filterMap fun k =>
      let b := e.2.barrier k
      if b.spilled || s.creditFlying e.1 k then none else some (e.1, k, b.touched)

/-- BARRIER_SPILL: where a search fails on a core only for barrier entries, the MP spills the entry least recently touched of
the teams away from it (R281). -/
def execBarrierSpill (team reg : Nat) (s : State) : Out :=
  match dget s.teams team with
  | none => .refused .notEnabled
  | some t =>
    let cands := s.spillable t.core
    match cands.find? fun c => c.1 == team && c.2.1 == reg with
    | none => .refused .notEnabled
    | some c =>
      if (cands.all fun d => c.2.2 ≤ d.2.2) && s.failsFor t.core .barriers then
        .next (s.modTeam team fun t => { t with barriers := dset t.barriers reg { t.barrier reg with spilled := true } })
      else .refused .notEnabled

/-- Teams away whose banks on a loom may be evicted (R315). -/
def State.evictable (s : State) (loom : Nat) : List (Nat × Team) :=
  s.teams.filter fun e =>
    e.2.away && islandOf e.2.core == loom
      && ((s.loom loom).banks.any fun b => b.2.team == e.1 && (b.2.st == .owned || b.2.st == .reserved))
      && !((s.loom loom).queue.any fun q => q.team == e.1)

/-- BANK_EVICT: where a search fails on a core of the quad only for banks, the MP copies the banks of the team longest away
into its arena, if that has room (R312, R315). -/
def execBankEvict (loom team : Nat) (s : State) : Out :=
  match dget s.teams team with
  | none => .refused .notEnabled
  | some t =>
    let l := s.loom loom
    let mine := l.banks.filter fun b => b.2.team == team
    let owned := (mine.filter fun b => b.2.st == .owned).length
    let chosen := ((longestAway (s.evictable loom)).map Prod.fst) == some team
    let wanted := (List.range 4).any fun i => s.failsFor (4 * loom + i) .banks
    if !chosen || !wanted || !s.arenaFits t.asid (2 ^ 18 * owned) then .refused .notEnabled
    else
      let names := t.banks.map fun n =>
        match n with
        | .bound b =>
          let x := dgetD l.banks b Bank.reset
          BankName.evicted x.elems x.nan x.kept
        | n => n
      let banks := l.banks.map fun b =>
        if b.2.team != team then b
        else if b.2.st == .owned then (b.1, { b.2 with st := .zeroing, kept := false })
        else if b.2.st == .reserved then (b.1, Bank.reset)
        else (b.1, { b.2 with kept := false })
      let dropped := (mine.filter fun b => b.2.st == .reserved || (b.2.st == .zeroing && b.2.kept)).length
      .next (({ s with looms := dset s.looms loom { l with banks := banks } } : State).modTeam team fun t =>
        { t with banks := names, recorded := t.recorded + dropped })

/-! ### Leaving RUNNING (R137, R157, R160) -/

/-- A team leaves its core (R157): its tokens are released. -/
def State.leaveCore (s : State) (tid : Nat) (st : TeamSt) : State :=
  let s1 := (s.dropTokens tid).modTeam tid fun t =>
    { t with st := st, awaySince := s.pk.gts, waitSince := none, stopReq := false, offCore := true }
  { s1 with groups := s1.groups.map fun e => if e.2.team = tid then (e.1, { e.2 with run := none }) else e }

/-- Every split of a group stands at a clause boundary, or is BLOCKED or PARKED (R157). -/
def Group.mayLeave (g : Group) : Bool :=
  g.st != .live || g.faultWait || g.splits.all fun sp => !sp.isHeld && (sp.st != .ready || sp.atBoundary)

/-- PREEMPTION_COMPLETE: a team asked to leave has every split at a boundary, blocked or parked (R156, R157). -/
def execPreemptionComplete (team : Nat) (s : State) : Out :=
  match dget s.teams team with
  | some t =>
    if t.st == .running && t.stopReq && !s.exempt team t && !t.copyingIn
        && s.inOrder team && (s.groupsOf team).all fun e => e.2.mayLeave then
      .next (s.leaveCore team .preempted)
    else .refused .notEnabled
  | none => .refused .notEnabled

/-- A split waits in WAITC, its condition not met, or in LAUNCH_WAIT (R138, R160). -/
def Split.longWait (sp : Split) : Bool :=
  match sp.st with
  | .blocked (.waitc _ _ _ met) => met.isNone
  | .blocked (.launch ..) => true
  | .free => true
  | _ => false

/-- The conditions of R160 hold for a team now. -/
def State.waiting (s : State) (tid : Nat) (t : Team) : Bool :=
  let gs := (s.groupsOf tid).filter fun e => e.2.st != .ended
  t.st == .running && !s.exempt tid t && !gs.isEmpty && !s.binsHold tid && !t.copyingIn
    && gs.all fun e => e.2.st == .live && e.2.marked == 0 && e.2.splits.all Split.longWait && !e.2.allFree

/-- Since when a team's waits have held on end (R160). -/
def State.waitMark (s : State) (tid : Nat) (t : Team) : Option Nat :=
  if s.waiting tid t then some (t.waitSince.getD (s.cyc1000 t.core)) else none

/-- Note since when each team's waits have held on end (R160). -/
def State.noteWaits (s : State) : State :=
  if s.teams.all fun e => e.2.waitSince == s.waitMark e.1 e.2 then s
  else { s with teams := s.teams.map fun e => (e.1, { e.2 with waitSince := s.waitMark e.1 e.2 }) }

/-- SWAPTH of a team's kernel (R106). -/
def State.swapth (s : State) (t : Team) : Nat :=
  let n := ((dget s.kernels t.kernel).map fun k => k.field 671 640).getD 0
  if n = 0 then 65536 else n

/-- SWAP_OUT: a team has waited for SWAPTH cycles on end. It leaves when the cycle in which they are full is over: a write of that
cycle that satisfies it comes first (R130, R138, R160). -/
def execSwapOut (team : Nat) (s : State) : Out :=
  match dget s.teams team with
  | some t =>
    match t.waitSince with
    | some n =>
      if s.waiting team t && s.inOrder team && nextCycle (n + 1000 * s.swapth t) ≤ s.cyc1000 t.core then .next (s.leaveCore team .swapped)
      else .refused .notEnabled
    | none => .refused .notEnabled
  | none => .refused .notEnabled

/-! ### Ends (R116, R123, R126, R137) -/

/-- An operation that its team waits for before it retires (R126): porter, loom, drain and chandler work, accesses to its own window,
and those that touch granules, which it holds until it retires (R355, log 55). The others may outlive it. -/
def State.keepsTeam (s : State) (t : Team) (o : Op) : Bool :=
  match o.work with
  | .mem m => m.kind.isPorter || m.space == .window
      || (m.space == .global && m.units.any fun u => u.waits && (s.regionAt t.asid u.addr).isSome)
  | .none => o.fam == .porter
  | .seal .. => false
  | .asdecl .. => false
  | _ => true

/-- Work of a team that it waits for remains (R126). -/
def State.busy (s : State) (tid : Nat) (t : Team) : Bool :=
  (s.opsOf tid).any (fun e => s.keepsTeam t e.2) || s.copying tid t

/-- Every group of a HALTING team has stopped: its running splits stand at boundaries, or it is not on its core (R137, R378). -/
def State.allStopped (s : State) (tid : Nat) (t : Team) : Bool := t.offCore || (s.groupsOf tid).all fun e => e.2.stopped

/-- A team may retire (R126, R137). -/
def State.mayRetire (s : State) (tid : Nat) (t : Team) : Bool :=
  let gs := s.groupsOf tid
  let ended := gs.all fun e => e.2.st == .ended && e.2.batches.isEmpty && e.2.asyncTraps.isEmpty && e.2.pendStops.isEmpty
  s.inOrder tid && match t.st with
  | .running => (!t.versioned || t.ver.irrevocable) && ended && !s.binsHold tid && !s.busy tid t && t.pendLate.isEmpty
  | .committing => t.ver.st == .committed && !s.busy tid t && t.pendLate.isEmpty
  | .halting => s.allStopped tid t && (s.opsOf tid).isEmpty && !s.copying tid t && !t.copyingOut && (!t.dumpDue || t.dumped)
  | _ => false

/-- The pending-launch entries of a team that has stopped, and those that wait to enter the queue, are CANCELLED (R123, R132,
log 31). -/
def State.cancelPending (s : State) (tid : Nat) : State :=
  match dget s.teams tid with
  | none => s
  | some t => (t.pend.foldl State.cancelKernel s).cancelLate tid

/-- A team retires: everything it holds returns at once; where it stops, its version is discarded and its entries are cancelled; the
token frees (R123, R126, R137, R364). -/
def State.retire (s : State) (tid : Nat) (t : Team) : State :=
  let s1 := if t.st == .halting then (s.discardVersion tid).cancelPending tid else s
  let s2 := (((s1.dropBins tid).dropTokens tid).freeHoops tid).releaseBanks tid false
  let s3 : State := { s2 with
    groups := s2.groups.filter fun e => e.2.team != tid
    mem := if t.windowIn then s2.mem.zero (scratchKey t.core t.wbase) t.wsize else s2.mem
    cur := none }
  ((s3.modTeam tid fun t =>
    { t with st := .retired, ver := { t.ver with sectors := [], tokenWait := false }, wounds := [] }).passToken tid).forgetTeam tid

/-- TEAM_RETIRE: a team whose work has ended, or that has stopped, retires (R126, R137). -/
def execTeamRetire (team : Nat) (s : State) : Out :=
  match dget s.teams team with
  | some t => if s.mayRetire team t then .next (s.retire team t) else .refused .notEnabled
  | none => .refused .notEnabled

/-- KERNEL_COMPLETE: every write of a DRAINING kernel's teams is performed; it enters COMPLETE and its counter is stepped
(R116, R121). The counter of a CANCELLED kernel that waited for such writes is stepped (R122). -/
def execKernelComplete (kernel : Nat) (s : State) : Out :=
  match dget s.kernels kernel with
  | some k =>
    if !s.kernelOver kernel then .refused .notEnabled
    else if k.st == .draining then
      .next (((s.modKernel kernel fun k => { k with st := .complete }).stepCounter kernel).forgetTeams kernel)
    else if k.st == .cancelled && s.stepDue kernel k then .next ((s.stepCounter kernel).forgetTeams kernel)
    else .refused .notEnabled
  | none => .refused .notEnabled

/-- KERNEL_FAULTED: the last team of a trapped kernel has stopped: it enters FAULTED, its counter is stepped, and vector 2 is
signalled (R116, R122, R123, R400). Entries of teams that had retired before the trap stay (R123, R129). -/
def execKernelFaulted (kernel : Nat) (s : State) : Out :=
  match dget s.kernels kernel with
  | some k =>
    if (k.st != .dispatching && k.st != .running) || !k.trapped || !s.kernelOver kernel then .refused .notEnabled
    else
      let s2 : State := { s with dists := s.dists.map fun e =>
        (e.1, { e.2 with kernels := e.2.kernels.filter (· != kernel) }) }
      .next ((((s2.modKernel kernel fun k => { k with st := .faulted }).stepCounter kernel).forgetTeams kernel).signal 2)
  | none => .refused .notEnabled

end Sys2Proof.Machine
end

