-- ==== Sys2Proof/Machine/Contexts.lean ====
section
/-!
DEFINITION. Contexts, queues and pools (05_contexts.md R90 to R100; 06_queues.md R103, R108, R109; 16_blocks_skeins.md R334,
R335): the mailbox commands that create, arm, suspend and drain a context, its queue commands, and its end.
-/
namespace Sys2Proof.Machine

/-- BAD_POOL (R334). -/
def codeBadPool : Nat := 0x12

/-! ### Creation (R90 to R92) -/

/-- A context as CTX_CREATE makes it (R98): the frequency table's header is 0 until it is armed, so the table has one entry (R84). -/
def Ctx.created (arenaMiB : Nat) (cred : List Byte) : Ctx :=
  { st := .created, cancel := false, arenaMiB := arenaMiB, cred := cred, mapNum := 0, map := [], freq := ⟨false, [0]⟩,
    masks2 := [], masks3 := [], dumpVa := 0, dumpSize := 0, dumpBanks := false, dumpKey := none, dumpSeq := 0, dumps := [],
    dumpPos := 4096, writing := none, remoteBw := 0, budget := 0, budgetAt := 0, lastSeq := 0, pages := [], attach := [], pools := [],
    blocks := [], skeins := [], regions := [], queues := [], faultLog := [], arenaWait := 0, enqLost := 0,
    promoDropped := 0, refFault := 0, skeinLost := 0, pch := [], dbg := false }

/-- The next ASID to issue: that after the last one, wrapping from 65,535 to 1, those of contexts left out (R90). -/
def State.nextAsid (s : State) : Nat :=
  (((List.range 1025).map fun i => (s.pk.lastAsid + i) % 65535 + 1).find? fun a => (dget s.ctxs a).isNone).getD 1

/-- CTX_CREATE (R90 to R92, R94, R95). -/
def execCtxCreate (arenaMiB : Nat) (cred : List Byte) (s : State) : Out :=
  onCommand s (
    if arenaMiB < 64 || 65536 < arenaMiB || cred.length != 1312 then s.answer codeBadRecord
    else if 1024 ≤ s.ctxs.length then s.answer codeNoContext
    else if s.hbmFree s.frames < arenaMiB * 2 ^ 20 then s.answer codeNoArena
    else
      let a := s.nextAsid
      let s1 : State := { s with
        ctxs := dset s.ctxs a (Ctx.created arenaMiB cred)
        pk := { s.pk with lastAsid := a } }
      .next (s1.respond codeOk [BitVec.ofNat 64 a] []))

/-! ### Pools (R334, R335) -/

/-- The pool a definition makes. -/
def poolOf (d : BitVec 256) : Pool :=
  let f (hi lo : Nat) : Nat := (d.extractLsb' lo (hi - lo + 1)).toNat
  { base := f 127 64, nblk := f 167 144, homes := d.extractLsb' 192 24, dm1 := f 51 40, fmt := f 39 36, bsc := f 19 16,
    free := [] }

/-- Bytes of a pool's range. -/
def Pool.bytes (p : Pool) : Nat := p.nblk * p.size

/-- A pool definition obeys R335 in a context. -/
def Ctx.poolOk (c : Ctx) (d : BitVec 256) : Bool :=
  let f (hi lo : Nat) : Nat := (d.extractLsb' lo (hi - lo + 1)).toNat
  let p := poolOf d
  f 255 216 == 0 && f 191 168 == 0 && f 143 128 == 0 && f 63 52 == 0 && f 35 20 == 0 && f 15 8 == 0
    && p.homes != 0 && p.nblk != 0 && p.fmt ≤ 12 && p.bsc ≤ 9
    && canonical p.base && p.base % p.size == 0 && canonical (p.base + p.bytes)
    && (p.base < 2 ^ 56) == (p.base + p.bytes < 2 ^ 56)
    && (dget c.pools (f 7 0)).isNone
    && c.pools.all (fun e => p.base + p.bytes ≤ e.2.base || e.2.base + e.2.bytes ≤ p.base)
    && (p.dm1 + 1) * typeBytes p.fmt ≤ p.size

/-- Define a pool in a context, or the refusal (R334). -/
def State.definePool (s : State) (asid : Nat) (d : BitVec 256) : Except Nat State :=
  match dget s.ctxs asid with
  | none => .error codeNoSuchContext
  | some c =>
    if !c.poolOk d then .error codeBadPool
    else if !s.arenaFits asid (32 * (poolOf d).nblk) then .error codeNoArena
    else .ok (s.modCtx asid fun c => { c with pools := dset c.pools (d.extractLsb' 0 8).toNat (poolOf d) })

/-- Define pools in order; the first refusal stands. -/
def State.definePools (s : State) (asid : Nat) : List (BitVec 256) → Except Nat State
  | [] => .ok s
  | d :: ds =>
    match s.definePool asid d with
    | .error k => .error k
    | .ok s1 => State.definePools s1 asid ds

/-- POOL_DEFINE (R334). -/
def execPoolDefine (asid : Nat) (defn : BitVec 256) (s : State) : Out :=
  onContextIn s asid statesServing fun _ =>
    match s.definePool asid defn with
    | .error k => s.answer k
    | .ok s1 => s1.answer codeOk

/-! ### Arming (R61, R62, R84, R96, R97, R270) -/

/-- Entries of a decode map image (R61). -/
def imageOf (bs : List Byte) : MapImage :=
  (List.range 1024).map fun i => bs.getD (2 * i + 1) 0 ++ bs.getD (2 * i) 0

/-- Map 0 assigns an opcode in either form of its word (R48). -/
def assignedOpcode (op : Nat) : Bool := assigned op || (findRow op 1).isSome

/-- An entry of an image at an index passes R62. -/
def imageEntryOk (i : Nat) (e : BitVec 16) : Bool :=
  let t := (e.extractLsb' 0 10).toNat
  e.extractLsb' 10 5 == 0 && (!e.getLsbD 15 || (t / 128 == i / 128 && assignedOpcode t))

/-- An image passes R62. -/
def imageOk (m : MapImage) : Bool := m.zipIdx.all fun x => imageEntryOk x.2 x.1

/-- A 64-bit word of a payload. -/
def dwordAt (bs : List Byte) (i : Nat) : DWord := BitVec.ofNat 64 (leNat ((bs.drop i).take 8))

/-- Mask i of a set passes R270. -/
def maskOk (h : DWord) (i : Nat) : Bool :=
  h.extractLsb' 7 6 == BitVec.ofNat 6 (2 ^ i) && h.extractLsb' 0 7 == 0 && h.extractLsb' 37 27 == 0

/-- The arming record keeps its reserved fields and its dump region (R96). -/
def armRecordOk (r : BitVec 1024) : Bool :=
  let size := (r.extractLsb' 128 64).toNat
  let va := (r.extractLsb' 64 64).toNat
  r.extractLsb' 192 832 == 0 && r.extractLsb' 9 23 == 0 && r.extractLsb' 4 4 == 0 && size % 4096 == 0
    && 1048576 ≤ size && va % 4096 == 0 && rangeCanonical va size

/-- What an arming record and its payloads load. -/
structure Arming where
  map : MapImage
  freq : Freq
  masks2 : List DWord
  masks3 : List DWord
  pools : List (BitVec 256)

/-- The decode map image at the head of the payloads, and the rest (R96). -/
def readImage (mapNum : Nat) (bs : List Byte) : Except Nat (MapImage × List Byte) :=
  if mapNum = 0 then .ok ([], bs)
  else if bs.length < 2048 || !imageOk (imageOf bs) then .error codeBadMap
  else .ok (imageOf bs, bs.drop 2048)

/-- The frequency table at the head of the payloads, and the rest (R84, R96). -/
def readFreq (bs : List Byte) : Except Nat (Freq × List Byte) :=
  let h := BitVec.ofNat 32 (leNat (bs.take 4))
  let n := (h.extractLsb' 0 8).toNat + 1
  if bs.length < 4 || h.extractLsb' 9 23 != 0 || bs.length < 4 * (n + 1) then .error codeBadFreq
  else
    .ok (⟨h.getLsbD 8, (List.range n).map fun i => BitVec.ofNat 32 (leNat ((bs.drop (4 * (i + 1))).take 4))⟩,
      bs.drop (4 * (n + 1)))

/-- The payloads, one after another; the first failure gives the code (R96). -/
def readArming (mapNum : Nat) (bs : List Byte) : Except Nat Arming :=
  match readImage mapNum bs with
  | .error k => .error k
  | .ok (map, b1) =>
    match readFreq b1 with
    | .error k => .error k
    | .ok (freq, b2) =>
      let m2 := (List.range 6).map fun i => dwordAt b2 (8 * i)
      let m3 := (List.range 6).map fun i => dwordAt b2 (48 + 8 * i)
      let rest := b2.drop 96
      if b2.length < 96 || !(m2 ++ m3).zipIdx.all fun x => maskOk x.1 (x.2 % 6) then .error codeBadHash
      else if rest.length % 32 != 0 then .error codeBadRecord
      else
        .ok ⟨map, freq, m2, m3, (List.range (rest.length / 32)).map fun i =>
          BitVec.ofNat 256 (leNat ((rest.drop (32 * i)).take 32))⟩

/-- The pages of a dump region: 4 KiB, BACK 0, ZERO, R only, pinned (R97). -/
def dumpPages (va size : Nat) : List (Nat × Page) :=
  (newPages va (size / 4096) 0x0000FF00_00000041#64 .none).map fun e => (e.1, { e.2 with pinned := true })

/-- CTX_ARM: record and payloads are checked in order, then take effect together; the dump key is what the random source of the MP
gives, a free value (R96, R97, log 13). -/
def execCtxArm (asid : Nat) (record : BitVec 1024) (payload : List Byte) (s : State) : Out :=
  onContextIn s asid [.created] fun _ =>
    let mapNum := (record.extractLsb' 0 4).toNat
    let va := (record.extractLsb' 64 64).toNat
    let size := (record.extractLsb' 128 64).toNat
    let bw := (record.extractLsb' 32 32).toNat
    if !armRecordOk record then s.answer codeBadRecord
    else
      match readArming mapNum payload with
      | .error k => s.answer k
      | .ok a =>
        match s.definePools asid a.pools with
        | .error k => s.answer k
        | .ok s1 =>
          if s1.hbmFree s1.frames < size then s.answerUnstated
          else
            let ps := dumpPages va size
            match s1.framesFor s1.frames (ps.map fun e => e.2.ask asid e.1) with
            | none => s.answerUnstated
            | some (fs, s2) =>
              let qs := withFrames ps fs
              let s3 := ((s2.useFree.fillFrames [] qs).enterPages asid qs).modCtx asid fun c =>
                { c with
                  st := .armed, mapNum := mapNum, map := a.map, freq := a.freq, masks2 := a.masks2, masks3 := a.masks3,
                  dumpVa := va, dumpSize := size, dumpBanks := record.getLsbD 8, dumpKey := some (Config.randomKey s2.freeCtr),
                  remoteBw := if bw = 0 then 1000 else bw, budgetAt := s.pk.gts, regions := [], pch := [] }
              s3.bump.answer codeOk

/-! ### States of a context (R98, R100) -/

/-- Change the state of a context. -/
def State.setCtx (s : State) (asid : Nat) (st : CtxSt) : State := s.modCtx asid fun c => { c with st := st }

/-- CTX_ACTIVATE (R98). -/
def execCtxActivate (asid : Nat) (s : State) : Out :=
  onContextIn s asid [.armed] fun _ => (s.setCtx asid .active).answer codeOk

/-- CTX_SUSPEND: every placed team but the holder of the token is asked to leave its core (R98, R156). -/
def execCtxSuspend (asid : Nat) (s : State) : Out :=
  onContextIn s asid [.active] fun _ =>
    let ask (t : Team) : Team :=
      if t.asid == asid && (t.st == .running || t.st == .wounded) && !t.ver.irrevocable then { t with stopReq := true } else t
    ({ s.setCtx asid .suspended with teams := s.teams.map fun e => (e.1, ask e.2) } : State).answer codeOk

/-- CTX_RESUME (R98). -/
def execCtxResume (asid : Nat) (s : State) : Out :=
  onContextIn s asid [.suspended] fun _ => (s.setCtx asid .active).answer codeOk

/-- Kernels of a context. -/
def State.kernelsOf (s : State) (asid : Nat) : List (Nat × Kernel) := s.kernels.filter fun e => e.2.asid == asid

/-- The kernel has ended (R116). -/
def Kernel.isOver (k : Kernel) : Bool := k.st == .complete || k.st == .faulted || k.st == .cancelled

/-- Every record that the segments of a context hold is removed and its kernel becomes CANCELLED (R98, R109). -/
def State.cancelHeld (s : State) (asid : Nat) (p : Nat → Bool) : State :=
  (s.kernelsOf asid).foldl (fun s e =>
    match e.2.src, e.2.st with
    | .segment _ q _, .enqueued => if p q then s.cancelKernel e.1 else s
    | _, _ => s) s

/-- Every queue of a context enters DRAINING (R109). -/
def State.drainQueues (s : State) (asid : Nat) (cancel : Bool) : State :=
  s.modCtx asid fun c =>
    { c with
      st := .draining, cancel := cancel
      queues := c.queues.map fun q => (q.1, { q.2 with st := .draining, cancel := q.2.cancel || cancel }) }

/-- A kernel is cancelled, unless it has ended (R116). -/
def State.cancelLive (s : State) (kid : Nat) : State :=
  match dget s.kernels kid with
  | some k => if k.isOver then s else s.cancelKernel kid
  | none => s

/-- The kernels for which a test holds and that have not ended become CANCELLED, but those a trap is taking to FAULTED: their teams
stop without a dump, and the pending entries of these teams are cancelled with them (R98, R100, R116, R132, R137). -/
def State.cancelWhere (s : State) (p : Nat × Kernel → Bool) : State :=
  let ks := (s.kernels.filter fun e => p e && !e.2.isOver && !e.2.trapped).map Prod.fst
  let ts := (s.teams.filter fun e => ks.contains e.2.kernel).map Prod.fst
  let s1 := s.haltTeams fun e => ks.contains e.2.kernel
  let s2 := ks.foldl State.cancelLive (ts.foldl State.cancelPending s1)
  let s3 : State := { s2 with
    dists := s2.dists.map fun e => (e.1, { e.2 with kernels := e.2.kernels.filter fun k => !ks.contains k }) }
  ts.foldl State.forgetTeam s3

/-- CTX_DRAIN (R98, R109). -/
def execCtxDrain (asid : Nat) (cancel : Bool) (s : State) : Out :=
  onContext s asid fun c =>
    if c.st == .draining && c.cancel then s.answer codeBadState
    else if c.st == .created || c.st == .armed then
      ((s.drainQueues asid cancel).cancelHeld asid fun _ => true).answer codeOk
    else if cancel then ((s.drainQueues asid true).cancelWhere fun e => e.2.asid == asid).answer codeOk
    else (s.drainQueues asid false).answer codeOk

/-- The code of a context's state in CTX_QUERY (log 12). -/
def CtxSt.code (c : CtxSt) : Nat :=
  match c with
  | .created => 0
  | .armed => 1
  | .active => 2
  | .suspended => 3
  | .draining => 4

/-- CTX_QUERY: the state and the counters that the manual says it reads (R93, R94, R267, R342, R347). -/
def execCtxQuery (asid : Nat) (s : State) : Out :=
  onContext s asid fun c =>
    .next (s.respond codeOk ([c.st.code, c.arenaWait, c.promoDropped, c.refFault, c.skeinLost].map (BitVec.ofNat 64)) [])

/-! ### Queue commands (R103, R108 to R110) -/

/-- Q_CREATE: the lowest free id, with room for its segments in the arena (R103, R108). Where several checks fail, the order of the
codes is the model's: BAD_LAUNCH, then NO_QUEUE, then NO_ARENA (log 41). -/
def execQCreate (asid prio c : Nat) (s : State) : Out :=
  onContextIn s asid statesServing fun x =>
    if 3 < prio || c < 4 || 12 < c then s.answer codeBadLaunch
    else
      match (List.range 64).find? fun q => (dget x.queues q).isNone with
      | none => s.answer codeNoQueue
      | some q =>
        if !s.arenaFits asid (2 ^ 15 * 2 ^ c) then s.answer codeNoArena
        else
          let s1 := s.modCtx asid fun x =>
            { x with queues := dset x.queues q ⟨prio, c, .created, false, [], 0⟩ }
          .next (s1.respond codeOk [BitVec.ofNat 64 q] [])

/-- A command of a queue, by the states it is permitted in (R108). -/
def onQueue (s : State) (asid qid : Nat) (sts : List QueueSt) (k : Queue → Out) : Out :=
  onContextIn s asid statesServing fun x =>
    match dget x.queues qid with
    | none => s.answer codeNoQueue
    | some q => if sts.contains q.st then k q else s.answer codeBadState

/-- Change a queue. -/
def State.modQueue (s : State) (asid qid : Nat) (f : Queue → Queue) : State :=
  s.modCtx asid fun c => { c with queues := dmod c.queues qid f }

/-- A queue command that only changes the state. -/
def queueTo (asid qid : Nat) (sts : List QueueSt) (st : QueueSt) (s : State) : Out :=
  onQueue s asid qid sts fun _ => (s.modQueue asid qid fun q => { q with st := st }).answer codeOk

/-- Q_ACTIVATE (R109). -/
def execQActivate (asid qid : Nat) (s : State) : Out := queueTo asid qid [.created] .active s

/-- Q_PAUSE (R109). -/
def execQPause (asid qid : Nat) (s : State) : Out := queueTo asid qid [.active] .paused s

/-- Q_RESUME (R109). -/
def execQResume (asid qid : Nat) (s : State) : Out := queueTo asid qid [.paused] .active s

/-- The kernel was taken from a queue, or its record is held there. -/
def Kernel.ofQueue (k : Kernel) (asid qid : Nat) : Bool :=
  match k.src with
  | .segment a q _ => a == asid && q == qid
  | .pending _ => false

/-- Q_DRAIN; with CANCEL every kernel of the queue that has not ended becomes CANCELLED, taken or not (R109, R116, R132, log 41). -/
def execQDrain (asid qid : Nat) (cancel : Bool) (s : State) : Out :=
  onQueue s asid qid [.created, .active, .paused, .draining] fun q =>
    if q.st == .draining && q.cancel then s.answer codeBadState
    else
      let s1 := s.modQueue asid qid fun q => { q with st := .draining, cancel := cancel }
      (if cancel then s1.cancelWhere fun e => e.2.ofQueue asid qid else s1).answer codeOk

/-- Q_ENQ (R108, R110). -/
def execQEnq (asid qid : Nat) (record : BitVec 1024) (s : State) : Out :=
  onContextIn s asid statesServing fun _ =>
    let (st, s1) := s.enqueue asid qid record
    s1.answer st

/-- The code of a queue's state in Q_QUERY (log 12). -/
def QueueSt.code (q : QueueSt) : Nat :=
  match q with
  | .created => 0
  | .active => 1
  | .paused => 2
  | .draining => 3

/-- Q_QUERY: state, priority, c, records held, records taken, ENQ_LOST (R108). -/
def execQQuery (asid qid : Nat) (s : State) : Out :=
  onContext s asid fun c =>
    match dget c.queues qid with
    | none => s.answer codeNoQueue
    | some q =>
      let held := q.segs.foldl (fun n e => n + e.2.length) 0
      .next (s.respond codeOk ([q.st.code, q.prio, q.c, held, q.taken, c.enqLost].map (BitVec.ofNat 64)) [])

/-- QUEUE_DRAIN_DONE: a DRAINING queue holds no record and every kernel taken from it has ended (R109). -/
def execQueueDrainDone (asid qid : Nat) (s : State) : Out :=
  match (dget s.ctxs asid).bind fun c => dget c.queues qid with
  | none => .refused .notEnabled
  | some q =>
    let ended := (s.kernelsOf asid).all fun e => e.2.isOver || !e.2.ofQueue asid qid
    if q.st == .draining && q.segs.all (fun e => e.2.isEmpty) && ended then
      .next (s.modCtx asid fun c => { c with queues := ddel c.queues qid })
    else .refused .notEnabled

/-! ### The end of a context (R98, R99) -/

/-- An outbound request is a remote operation of a context (R98). -/
def State.requestOf (s : State) (asid : Nat) (q : OutReq) : Bool :=
  let kernelOf (k : Nat) : Bool := ((dget s.kernels k).map fun k => k.asid == asid).getD false
  match q.purpose with
  | .access op _ => ((dget s.flight op).bind fun o => dget s.teams o.team).map Team.asid == some asid
  | .waitc g _ => ((dget s.groups g).bind fun g => dget s.teams g.team).map Team.asid == some asid
  | .counter k => kernelOf k
  | .fetch k .. => kernelOf k
  | .edge k .. => kernelOf k
  | .xfer .. => false
  | .inbound .. => false

/-- An inbound request of a port waits on a window of a context. -/
def State.inboundAt (s : State) (asid : Nat) : Bool :=
  s.ports.any fun e => e.2.inb.any fun q =>
    ((dget s.pk.windows q.window).map fun w => w.asid == asid).getD false

/-- Nothing of a DRAINING context remains: queues, teams that run or are away or hold an entry, operations in flight, kernels, counter
steps, remote operations and accepted commands (R98). -/
def State.quiescent (s : State) (asid : Nat) (c : Ctx) : Bool :=
  c.st == .draining && c.queues.isEmpty && c.writing.isNone
    && !(s.teams.any fun e => e.2.asid == asid && (e.2.st != .retired || !e.2.pend.isEmpty || !(s.opsOf e.1).isEmpty))
    && (s.kernelsOf asid).all (fun e => e.2.isOver && (e.2.stepped || e.2.field 191 128 == 0))
    && !(s.ports.any fun e => e.2.out.any (s.requestOf asid)) && !s.inboundAt asid
    && !(s.mp.xfers.any fun x => x.cmd.asid == asid) && !(s.mp.waiting.any fun w => w.cmd.asid == asid)

/-- Every line, tag and record of an ASID goes: caches, trace rings but for EPOCH records, hoops, fault records on their way,
export windows, attachments (R99). -/
def State.eraseAsid (s : State) (asid : Nat) : State :=
  { s with
    cores := s.cores.map fun e =>
      (e.1, { e.2 with
        l1 := e.2.l1.filter fun l => l.asid != asid
        victims := e.2.victims.filter fun v => v.2.1 != asid
        trace := e.2.trace.filter fun r => (r.extractLsb' 112 16).toNat != asid
        issued := ddel e.2.issued asid
        memCount := ddel e.2.memCount asid
        sieve := e.2.sieve.filter fun r => r.rcd.asid != asid })
    clusters := s.clusters.map fun e => (e.1, { e.2 with sectors := e.2.sectors.filter fun x => x.asid != asid })
    slices := s.slices.map fun e => (e.1, { e.2 with hoops := e.2.hoops.filter fun h => h.asid != asid })
    mp := { s.mp with faults := s.mp.faults.filter fun f => f.1 / 2 ^ 64 != asid }
    pk := { s.pk with windows := s.pk.windows.filter fun w => w.2.asid != asid }
    kernels := s.kernels.filter fun e => e.2.asid != asid
    teams := s.teams.filter fun e => e.2.asid != asid
    ports := s.ports.map fun e => (e.1, { e.2 with performed := e.2.performed.filter fun x => x.2.1 != asid })
    ctxs := (ddel s.ctxs asid).map fun e =>
      (e.1, { e.2 with attach := e.2.attach.filter fun a => a.shared != asid }) }

/-- The frames of a page of a context that ends. Its own are zeroed, though a page of another context may mirror one: nothing of the
context can be read afterwards; the frame of a mirror is zeroed with the last page that shows it (R99, R252, log 42). -/
def State.giveUpFrames (s : State) (e : Nat × Page) : State :=
  e.2.frames.foldl (fun s f =>
    match e.2.loc with
    | .mirror .. => s.freeFrame f.1 f.2.1
    | _ => { s with mem := s.mem.zero f.1 f.2.1 }) s

/-- CONTEXT_QUIESCENCE: the context is DESTROYED: caches and trace records go, its frames are zeroed and freed, its dump key
is lost with it, and its ASID may be issued again. What others had waiting on its pages meets them gone (R98, R99). -/
def execContextQuiescence (asid : Nat) (s : State) : Out :=
  match dget s.ctxs asid with
  | none => .refused .notEnabled
  | some c =>
    if !s.quiescent asid c then .refused .notEnabled
    else
      let s1 := s.eraseAsid asid
      let s2 := c.pages.foldl State.giveUpFrames s1
      .next (c.pages.foldl (fun s e => (s.wakePage asid e.1 0 e.2.waiters).replayHold asid e.2.hold) s2)

end Sys2Proof.Machine
end

