-- ==== Sys2Proof/Machine/Dumps.lean ====
section
/-!
DEFINITION. Dumps, the reading of dumps and traces, and debugging (05_contexts.md R101; 18_traps_dumps.md R379 to R390,
R431).
-/
namespace Sys2Proof.Machine

/-! ### Layouts -/

/-- A number from its fields, each given by its highest bit, its lowest bit and its value. -/
def packFields (fs : List (Nat × Nat × Nat)) : Nat :=
  fs.foldl (fun n f => n + f.2.2 % 2 ^ (f.1 + 1 - f.2.1) * 2 ^ f.2.1) 0

/-- A fault record in the layout of R259. SOURCE has nine bits, so a distributor's number 512 + c stands there as c; its TEAM tells it
from a core (log 42). -/
def FaultRecord.image (f : FaultRecord) : List Byte :=
  leBytes 32 (packFields [(232, 224, f.source), (223, 192, f.team), (189, 189, if f.merged then 1 else 0), (188, 185, f.cause),
    (183, 180, f.acc), (179, 176, f.sc), (175, 160, f.asid), (159, 128, f.mask), (127, 64, f.gts), (63, 0, f.va)])

/-- KTAG of a kernel's launch record (R106). -/
def Kernel.ktag (k : Kernel) : Nat := k.field 639 608

/-- A trap record in the layout of R379. -/
def TrapRecord.image (r : TrapRecord) (t : Team) (k : Kernel) : List Byte :=
  leBytes 64 (packFields [(511, 384, r.causev), (383, 320, r.gts), (319, 256, t.age.toNat), (255, 224, t.lid),
    (223, 192, t.restarts), (191, 160, k.ktag), (159, 128, r.word.toNat), (127, 64, r.hdr), (63, 32, r.lanes.toNat),
    (31, 28, r.map), (27, 24, r.idx), (23, 16, r.detail), (15, 10, r.grp), (7, 0, r.code)])

/-- The fields of a barrier entry in the layout of R275. -/
def Barrier.image (b : Barrier) : List Byte :=
  leBytes 32 (packFields [(232, 192, b.bcred), (191, 151, b.bexp), (150, 140, b.texp), (139, 129, b.tarr), (128, 118, b.tinit),
    (117, 116, if b.armed then 1 else 0), (115, 84, b.pinit), (31, 0, b.phase)])

/-- The arrival array of a barrier, cut to a number of threads and padded to 16 B (R276, R382). -/
def Barrier.arrivals (b : Barrier) (ntid : Nat) : List Byte :=
  let st (t : Nat) : Nat := if b.dropped.contains t then 2 else if b.arrived.contains t then 1 else 0
  leBytes ((ntid + 63) / 64 * 16) (packFields ((List.range ntid).map fun t => (2 * t + 1, 2 * t, st t)))

/-! ### Group records (R382) -/

/-- State code of a group (R382). -/
def Group.stateCode (g : Group) : Nat :=
  match g.st with
  | .ended => 4
  | .stoodDown => 3
  | .live => if g.faultWait then 2 else if g.anyReady then 0 else 1

/-- PC of a split: the header it stands before, or the instruction it is held at (R134, R135, R143). -/
def Split.dumpPc (sp : Split) : Nat :=
  match sp.st with
  | .free => 0
  | .ready => if sp.atBoundary then sp.pc else sp.hdr + 4 * (sp.nxt + 1)
  | .blocked (.header _) => sp.hdr
  | _ => if sp.words.isEmpty then sp.pc else sp.hdr + 4 * (sp.pos + 1)

/-- State, reason and reason operand of a split; an operand the manual does not name is free (R382, log 5). -/
def Split.dumpState (sp : Split) (free : Nat) : Nat × Nat × Nat :=
  match sp.st with
  | .free => (0, 0, 0)
  | .ready => (1, 0, 0)
  | .parked => (3, 9, sp.pages.headD 0 % 2 ^ 64)
  | .blocked b =>
    match b with
    | .header m => (2, 1, m.toNat)
    | .dwait k _ => (2, 1, k)
    | .waitc _ va .. => (2, 2, va)
    | .timewait n => (2, 3, n)
    | .sleep _ => (2, 4, free)
    | .bwaitp _ p => (2, 5, p.toNat)
    | .bwait _ => (2, 6, free)
    | .launch .. => (2, 7, free)
    | .spillWait .. => (2, 8, free)
    | .fence .. => (1, 0, 0)
    | .held .. => (1, 0, 0)
    | .spilling .. => (1, 0, 0)
    | .spillWrite => (1, 0, 0)

/-- A split record of 32 B. -/
def Split.image (sp : Split) (free : Nat) : List Byte :=
  let x := sp.dumpState free
  leBytes 8 sp.dumpPc ++ leBytes 4 sp.mask.toNat ++ leBytes 4 x.1 ++ leBytes 4 x.2.1 ++ leBytes 4 sp.skip ++ leBytes 8 x.2.2

/-- %tid of each lane, 0xFFFF where no thread is. -/
def Group.tidBytes (g : Group) : List Byte :=
  (List.range 32).flatMap fun l => leBytes 2 (if g.holds.getLsbD l then g.tid.getD l 0 else 0xFFFF)

/-- A group record of a role of some granules (R382). -/
def Group.image (g : Group) (granules free : Nat) : List Byte :=
  leBytes 4 g.grp ++ leBytes 4 g.slot ++ leBytes 4 g.role ++ leBytes 4 g.stateCode
    ++ leBytes 4 g.fmode.toNat ++ leBytes 4 g.batchL ++ leBytes 4 g.faulted.toNat ++ leBytes 4 g.spilled.toNat
    ++ (List.range 6).flatMap (fun k => leBytes 1 (g.cnt k)) ++ leBytes 2 0
    ++ leBytes 4 g.ended.toNat ++ leBytes 4 (~~~g.holds).toNat
    ++ (List.range 4).flatMap (fun i => (g.split i).image free)
    ++ leBytes 16 (causeVec g.causes)
    ++ g.tidBytes
    ++ (List.range 64).flatMap (fun n => leBytes 8 (g.sreg n).toNat)
    ++ (List.range (8 * granules)).flatMap fun r => (List.range 32).flatMap fun l => leBytes 4 (g.vreg r l).toNat

/-- The group has a record: it lives, stands down, or ENDED with lanes faulted (R382). -/
def Group.inDump (g : Group) : Bool := g.st != .ended || g.faulted != 0

/-! ### Tiles, banks, records (R309, R382, R431) -/

/-- A bank name of 4 B: state, physical bank, NaN flag; that of an EVICTED name is free (R315, R382, log 5). -/
def bankWord (l : Loom) (free : Word) : BankName → List Byte
  | .unbound => leBytes 4 0
  | .bound b => leBytes 4 (packFields [(31, 30, 1), (10, 8, b), (0, 0, if (dgetD l.banks b Bank.reset).nan then 1 else 0)])
  | .evicted .. => leBytes 4 free.toNat

/-- The content of section 5 but for the loom entries. -/
def Team.tileBytes (t : Team) (l : Loom) (free : Word) : List Byte :=
  (List.range 16).flatMap (fun n => leBytes 8 (dgetD t.handles n 0).toNat)
    ++ leBytes 2 (packFields ((List.range 16).map fun n => (n, n, if (dget t.handles n).isSome then 1 else 0)))
    ++ t.banks.flatMap (bankWord l free)

/-- Contents of each BOUND bank, in name order (R382). -/
def Team.bankBytes (t : Team) (l : Loom) : List (List Byte) :=
  t.banks.filterMap fun n =>
    match n with
    | .bound b =>
      let x := dgetD l.banks b Bank.reset
      some ((List.range 65536).flatMap fun i => leBytes 4 (sget 0 x.elems i).toNat)
    | _ => none

/-- Type of a trace record (R386). -/
def traceType (r : BitVec 128) : Nat := (r.extractLsb' 106 6).toNat
/-- ASID of a trace record (R386). -/
def traceAsid (r : BitVec 128) : Nat := (r.extractLsb' 112 16).toNat
/-- The record is an EPOCH record (R385). -/
def isEpoch (r : BitVec 128) : Bool := traceType r == 0 && traceAsid r == 0
/-- The epoch an EPOCH record opens (R385). -/
def epochAfter (r : BitVec 128) : Nat := (r.extractLsb' 0 64).toNat - (r.extractLsb' 64 32).toNat

/-- Records of an ASID from a time on, and every EPOCH record, of a ring whose first record lies in an epoch. -/
def recordsSince (asid gts : Nat) : Nat → List (BitVec 128) → List (BitVec 128)
  | _, [] => []
  | e, r :: rs =>
    if isEpoch r then r :: recordsSince asid gts (epochAfter r) rs
    else if traceAsid r == asid && gts ≤ e + (r.extractLsb' 64 32).toNat then r :: recordsSince asid gts e rs
    else recordsSince asid gts e rs

/-- The records of a ring that a dump takes (R382). -/
def Core.recordsSince (c : Core) (asid gts : Nat) : List (BitVec 128) :=
  let e := match c.trace.find? isEpoch with
    | some r => epochAfter r - 2 ^ 32
    | none => c.epoch
  Machine.recordsSince asid gts e c.trace

/-- Pending-launch entries and held launch and enq records of a team (R382). -/
def State.heldRecords (s : State) (t : Team) : List (BitVec 1024) :=
  (t.pend.filterMap fun k => (dget s.kernels k).map Kernel.rcd) ++ t.ver.recs.map HeldRec.rcd ++ t.pendLate

/-! ### The dump (R381, R382) -/

/-- A section: type, COUNT and content. -/
abbrev Section := Nat × Nat × List Byte

/-- The bytes of a section. -/
def sectionBytes (x : Section) : List Byte :=
  leBytes 16 (packFields [(127, 96, x.1), (95, 64, x.2.1), (63, 0, 16 + x.2.2.length)]) ++ x.2.2

/-- Threads of a kernel's teams (R29). -/
def Kernel.ntid (k : Kernel) : Nat := 32 * (k.field 364 360 + 1)

/-- The sections of a dump of a team, in order, empty ones left out (R382). -/
def State.sections (s : State) (tid : Nat) (t : Team) (k : Kernel) (c : Ctx) (traps : List TrapRecord) : List Section :=
  let l := s.loom (islandOf t.core)
  let gs := sortOn Group.grp (((s.groupsOf tid).map Prod.snd).filter Group.inDump)
  let faults := t.faults.take 256
  let looms := if t.st == .halting then t.loomSnap else s.loomEntries tid t
  let recs := s.heldRecords t
  let trace := t.cores.flatMap fun n => (s.core n).recordsSince t.asid t.startedAt
  let nbar := s.nbarOf t
  let banks := if c.dumpBanks then t.bankBytes l else []
  [ (1, traps.length, traps.flatMap fun r => r.image t k),
    (2, faults.length + (t.faults.length - faults.length) % 2 ^ 16 * 2 ^ 16, faults.flatMap FaultRecord.image),
    (3, gs.length, gs.flatMap fun g => g.image (k.granules g.role) (Config.freeDWord s.freeCtr).toNat),
    (4, nbar, (List.range nbar).flatMap fun n => (t.barrier n).image ++ (t.barrier n).arrivals k.ntid),
    (5, looms.length, t.tileBytes l (Config.freeWord s.freeCtr) ++ looms.flatMap fun e => leBytes 32 e.toNat),
    (6, recs.length, recs.flatMap fun r => leBytes 128 r.toNat),
    (7, trace.length, trace.flatMap fun r => leBytes 16 r.toNat),
    (8, 1, s.windowBytes t 0 t.wsize),
    (9, banks.length, banks.flatten) ].filter fun x => !x.2.2.isEmpty

/-- Sections cut to a length: those that fit whole, then the part of the first that does not; the flag says that something
was cut (R381). -/
def cutSections : Nat → List Section → List (List Byte) × Bool
  | _, [] => ([], false)
  | room, x :: xs =>
    if 16 + x.2.2.length ≤ room then
      let r := cutSections (room - (16 + x.2.2.length)) xs
      (sectionBytes x :: r.1, r.2)
    else if 16 < room then ([sectionBytes (x.1, x.2.1, x.2.2.take (room - 16))], true)
    else ([], true)

/-- The header of a dump (R382). -/
def State.dumpHeader (s : State) (tid : Nat) (t : Team) (k : Kernel) (c : Ctx) (first : TrapRecord) (debug trunc : Bool)
    (seq nsec : Nat) : List Byte :=
  let ngrp := ((s.groupsOf tid).filter fun e => e.2.inDump).length
  let bit (b : Bool) : Nat := if b then 1 else 0
  leBytes 128 (packFields [(895, 832, seq), (831, 768, first.gts), (767, 704, t.age.toNat), (703, 640, k.field 63 0),
    (639, 608, t.lid), (607, 576, t.restarts), (575, 544, k.ktag), (543, 512, k.ntid), (511, 480, t.wbase),
    (479, 448, t.wsize), (447, 416, t.core), (415, 408, first.code), (407, 400, ngrp), (399, 392, s.nbarOf t),
    (391, 352, k.field 431 392), (351, 348, c.mapNum), (347, 347, bit t.versioned), (346, 346, bit trunc),
    (345, 345, bit c.dumpBanks), (344, 344, bit debug), (343, 336, nsec), (335, 320, t.asid)])

/-- A directory entry (R381). -/
def dirEntry (first : TrapRecord) (t : Team) (k : Kernel) (len off seq st : Nat) : List Byte :=
  leBytes 64 (packFields [(319, 256, first.gts), (255, 224, t.lid), (223, 192, k.ktag), (191, 128, len), (127, 64, off),
    (63, 8, seq), (1, 0, st)])

/-- Dumps whose directory entries a new dump clears: those it overwrites, and that of its own entry (R381). -/
def Ctx.clearedBy (c : Ctx) (seq off len : Nat) : List DumpEntry :=
  c.dumps.filter fun e => e.slot == seq % 64 || (e.off < off + len + 16 && off < e.off + e.len + 16)

/-- The IV of a dump: SEQ[63:0] followed by 32 zero bits (R381). -/
def dumpIv (seq : Nat) : BitVec 96 := BitVec.ofNat 64 seq ++ (0 : Word)

/-- The MP begins a dump of a team in the dump region of its context: it takes the text of it, clears the entries of the dumps it
overwrites, and its own entry says that it is being written (R381, R382). -/
def State.beginDump (s : State) (tid : Nat) (t : Team) (k : Kernel) (c : Ctx) (traps : List TrapRecord) (tag : Option Nat) : State :=
  let first := traps.headD ⟨0, 0, 0, 0, 0, 0, 0, 0, 0, 0⟩
  let seq := c.dumpSeq + 1
  let (ss, trunc) := cutSections (c.dumpSize - 4096 - 16 - 128) (s.sections tid t k c traps)
  let plain := s.dumpHeader tid t k c first tag.isSome trunc seq ss.length ++ ss.flatten
  let n := plain.length
  let off := if c.dumpSize < c.dumpPos + n + 16 then 4096 else c.dumpPos
  let aad := dirEntry first t k n off seq 0
  let gone := c.clearedBy seq off n
  let s1 := gone.foldl (fun s e => s.deviceWrite t.asid (c.dumpVa + 64 * e.slot) (leBytes 64 0)) s
  let s2 := s1.deviceWrite t.asid (c.dumpVa + 64 * (seq % 64)) (dirEntry first t k n off seq 1)
  (s2.modCtx t.asid fun c =>
    { c with dumpSeq := seq, dumpPos := off + n + 16, dumps := c.dumps.filter fun e => !gone.contains e
             writing := some ⟨tid, ⟨seq % 64, seq, off, n⟩, aad, plain, trunc, tag⟩ }).useFree

/-- The MP ends a dump: its cipher text stands in the ring, page by page, its entry is valid, vector 2 is signalled, and a command that
asked for it is answered (R381, R390, R400). -/
def State.endDump (s : State) (asid : Nat) (c : Ctx) (d : DumpDraft) : State :=
  let s1 := s.deviceWrite asid (c.dumpVa + d.entry.off) (gcmSeal (c.dumpKey.getD 0) (dumpIv d.entry.seq) d.aad d.plain)
  let s2 := s1.deviceWrite asid (c.dumpVa + 64 * d.entry.slot) (leBytes 64 (leNat d.aad + if d.trunc then 3 else 2))
  let s3 := (s2.modCtx asid fun c => { c with dumps := c.dumps ++ [d.entry], writing := none }).signal 2
  match d.tag with
  | some g => s3.respondTo g codeOk [] []
  | none => s3.modTeam d.team fun t => { t with dumped := true }

/-- A record of the team with a fatal cause is still to leave a sieve (R258). -/
def State.sieving (s : State) (tid : Nat) : Bool :=
  s.cores.any fun e => e.2.sieve.any fun r =>
    r.rcd.cause != causeNotPresent && ((dget s.groups r.group).map fun g => g.team == tid).getD false

/-- A dump of a trap is due, its team stopped and its work over, and its fault records out of the sieves, since the dump holds them
(R258, R380, R382). -/
def State.dumpReady (s : State) (tid : Nat) (t : Team) : Bool :=
  t.st == .halting && t.dumpDue && !t.dumped && !t.copyingOut && s.allStopped tid t && !s.busy tid t && !s.sieving tid
    && (s.groupsOf tid).all fun e => e.2.waitMet 0x3F

/-- GTS of a team's first trap. -/
def Team.trappedAt (t : Team) : Nat := (t.traps.map TrapRecord.gts).headD 0

/-- The MP begins the dump of a team whose trap came first of those of its context that are due (R380). -/
def State.dueDumpOf (s : State) (team : Nat) : Out :=
  match dget s.teams team with
  | none => .refused .notEnabled
  | some t =>
    let earlier := s.teams.any fun e =>
      e.2.asid == t.asid && e.2.st == .halting && e.2.dumpDue && !e.2.dumped && e.2.trappedAt < t.trappedAt
    match dget s.kernels t.kernel, dget s.ctxs t.asid with
    | some k, some c =>
      if !s.dumpReady team t || earlier || c.writing.isSome then .refused .notEnabled
      else .next (s.beginDump team t k c t.traps none)
    | _, _ => .refused .notEnabled

/-- DUMP_WRITE: the MP ends the dump of a team that it is writing, or begins the one that is due (R380, R381). -/
def execDumpWrite (team : Nat) (s : State) : Out :=
  match s.ctxs.findSome? fun e => (e.2.writing.map fun d => (e.1, e.2, d)).filter fun x => x.2.2.team == team with
  | some (asid, c, d) => .next (s.endDump asid c d)
  | none => s.dueDumpOf team

/-! ### DUMP_READ and TRACE_READ (R101, R381, R384, R385) -/

/-- NO_DUMP (R381). -/
def codeNoDump : Nat := 0x13
/-- DUMP_AUTH (R381). -/
def codeDumpAuth : Nat := 0x14

/-- The digest that the owner signs: of command code, ASID, operand and sequence number (R101, log 13). -/
def ownerDigest (code asid operand seq : Nat) : List Byte :=
  sha3 (leBytes 1 code ++ leBytes 2 asid ++ leBytes 8 operand ++ leBytes 8 seq)

/-- What a command under the owner's signature comes to once it is let in. -/
inductive OwnerAnswer where
  /-- Its bytes. -/
  | bytes (bs : List Byte)
  /-- The code with which it is refused. -/
  | refuse (code : Nat)
  /-- It is refused, and no code is named (log 12). -/
  | unstated

/-- A command under the owner's signature: turned away unless it verifies and its sequence number is a new one. Where it is
accepted, that number becomes the last one accepted; a refused command changes nothing (R94, R101, log 42). -/
def onOwner (s : State) (cmd : Instr) (asid operand seq : Nat) (sig : List Byte) (k : Ctx → OwnerAnswer) : Out :=
  onContext s asid fun c =>
    let digest := ownerDigest ((commandCode cmd).getD 0) asid operand seq
    if !mldsaVerify c.cred digest sig || seq ≤ c.lastSeq || 2 ^ 64 ≤ seq then s.answer codeBadCredential
    else
      match k c with
      | .bytes bs => .next ((s.modCtx asid fun c => { c with lastSeq := seq }).respond codeOk [] bs)
      | .refuse code => s.answer code
      | .unstated => s.answerUnstated

/-- DUMP_READ: a dump, decrypted (R101, R381). -/
def execDumpRead (asid slot seq : Nat) (sig : List Byte) (s : State) : Out :=
  onOwner s (.dumpRead asid slot seq sig) asid slot seq sig fun c =>
    match c.dumps.find? fun e => e.slot == slot with
    | none => .refuse codeNoDump
    | some e =>
      let entry := s.vbytes asid (c.dumpVa + 64 * e.slot) 64
      let aad := leBytes 64 (leNat entry / 4 * 4)
      match gcmOpen (c.dumpKey.getD 0) (dumpIv e.seq) aad (s.vbytes asid (c.dumpVa + e.off) (e.len + 16)) with
      | some bs => .bytes bs
      | none => .refuse codeDumpAuth

/-- TRACE_READ: the records of the ASID in a core's ring with the EPOCH records, or with core 0xFFFF the fault log, oldest
first (R101, R384, R385). -/
def execTraceRead (asid core seq : Nat) (sig : List Byte) (s : State) : Out :=
  onOwner s (.traceRead asid core seq sig) asid core seq sig fun c =>
    if core = 0xFFFF then .bytes (c.faultLog.flatMap FaultRecord.image)
    else if core < Config.cores then
      .bytes (((s.core core).trace.filter fun r => isEpoch r || traceAsid r == asid).flatMap fun r => leBytes 16 r.toNat)
    else .unstated

/-- TRACE_EPOCH: the ring of a core enters the epoch of the time stamp (R385). -/
def execTraceEpoch (core : Nat) (s : State) : Out :=
  if Config.cores ≤ core || (s.core core).epoch == epochOf s.pk.gts then .refused .notEnabled
  else .next (s.modCore core fun c => c.newEpoch s.pk.gts)

/-! ### Debugging (R388 to R390) -/

/-- BUSY (R388). -/
def codeBusy : Nat := 0x15
/-- NO_TEAM (R388). -/
def codeNoTeam : Nat := 0x16

/-- DBG_ATTACH (R388). -/
def execDbgAttach (asid : Nat) (s : State) : Out :=
  onContext s asid fun _ => (s.modCtx asid fun c => { c with dbg := true }).answer codeOk

/-- Set or release the hold on groups that a test names. -/
def State.hold (s : State) (on : Bool) (p : Group → Bool) : State :=
  { s with groups := s.groups.map fun e => if p e.2 then (e.1, { e.2 with dbgHeld := on }) else e }

/-- DBG_DETACH: the attachment ends and every hold in the context is released (R388). -/
def execDbgDetach (asid : Nat) (s : State) : Out :=
  onContext s asid fun _ =>
    let s1 := s.modCtx asid fun c => { c with dbg := false }
    (s1.hold false fun g => ((dget s.teams g.team).map Team.asid) == some asid).answer codeOk

/-- A placed or away team of a context by KTAG and linear id (R388). -/
def State.findTeam (s : State) (asid ktag team : Nat) : Option (Nat × Team) :=
  s.teams.find? fun e =>
    e.2.asid == asid && e.2.st != .retired && e.2.lid == team && ((dget s.kernels e.2.kernel).map Kernel.ktag) == some ktag

/-- A debug command of a team. -/
def onTeam (s : State) (asid ktag team : Nat) (k : Nat → Team → Out) : Out :=
  onContext s asid fun _ =>
    match s.findTeam asid ktag team with
    | some (tid, t) => k tid t
    | none => s.answer codeNoTeam

/-- The group is one of a team's that a mask names. -/
def Group.named (g : Group) (tid : Nat) (mask : BitVec 64) : Bool := g.team == tid && g.st != .ended && mask.getLsbD g.grp

/-- The team's registers stand in its context images (R157, R388). -/
def Team.imaged (t : Team) : Bool := t.st == .preempted || t.st == .swapped

/-- A team away from its core: a hold finds its groups quiesced (R388). -/
def State.imagedTeam (s : State) (tid : Nat) : Bool := ((dget s.teams tid).map Team.imaged).getD false

/-- A group with faulted lanes that a debugger's hold keeps at its clause boundary, or away from its core, takes their trap at once
(R377, R388, R391). -/
def State.heldTraps (s : State) : State :=
  let due (e : Nat × Group) : Bool :=
    e.2.dbgHeld && e.2.faulted != 0 && e.2.st == .live && (e.2.atBoundaries || s.imagedTeam e.2.team)
      && ((dget s.teams e.2.team).map Team.alive).getD false
  (s.groups.filter due).foldl (fun s e => s.laneFault e.1 e.2) s

/-- DBG_HOLD: the groups become ineligible for issue; each split stops at its next clause boundary, and the hold of a group that
stands there brings the trap of its faulted lanes (R377, R388). -/
def execDbgHold (asid ktag team : Nat) (mask : BitVec 64) (s : State) : Out :=
  onTeam s asid ktag team fun tid _ => (s.hold true fun g => g.named tid mask).heldTraps.answer codeOk

/-- DBG_RELEASE (R388). -/
def execDbgRelease (asid ktag team : Nat) (mask : BitVec 64) (s : State) : Out :=
  onTeam s asid ktag team fun tid _ => (s.hold false fun g => g.named tid mask).answer codeOk

/-- A held group is quiesced (R388). -/
def Group.quiesced (g : Group) (t : Team) : Bool :=
  g.dbgHeld && (t.imaged || (g.waitMet 0x3F && g.splits.all fun sp => !sp.isHeld && (sp.st != .ready || sp.atBoundary)))

/-- The record of a debug snapshot: what the manual does not say of it is free (R390, log 5). -/
def State.snapRecord (s : State) (t : Team) : TrapRecord :=
  ⟨0x0D, 0, Config.freeNat s.freeCtr, Config.freeWord s.freeCtr, (Config.freeDWord s.freeCtr).toNat,
    Config.freeNat (s.freeCtr + 1), Config.freeWord (s.freeCtr + 1), s.mapNumOf t, s.pk.gts, 0⟩

/-- DBG_SNAP: a snapshot of a team whose groups are all held and quiesced (R390). The MP writes one dump of a context at a time (R380), and
answers when it has written the snapshot. -/
def execDbgSnap (asid ktag team : Nat) (s : State) : Out :=
  onTeam s asid ktag team fun tid t =>
    let gs := (s.groupsOf tid).filter fun e => e.2.st != .ended
    match dget s.kernels t.kernel, dget s.ctxs asid with
    | some k, some c =>
      if !(gs.all fun e => e.2.quiesced t) then s.answer codeBusy
      else if c.writing.isSome then .refused .notEnabled
      else .next (s.useFree.useFree.beginDump tid t k c [s.snapRecord t] (some s.tag))
    | _, _ => s.answer codeNoTeam

/-- DBG_WRITE: a register of a quiesced group: 0 vector, 1 scalar, 2 %fmode (R388). -/
def execDbgWrite (asid ktag team grp kind reg : Nat) (lanes : LaneMask) (value : DWord) (s : State) : Out :=
  onTeam s asid ktag team fun tid t =>
    match (s.groupsOf tid).find? fun e => e.2.grp == grp && e.2.st != .ended with
    | none => s.answer codeBusy
    | some (gid, g) =>
      if !g.quiesced t then s.answer codeBusy
      else
        let budget := ((dget s.kernels t.kernel).map fun k => 8 * k.granules g.role).getD 0
        match kind with
        | 0 =>
          if budget ≤ reg then s.answerUnstated
          else (s.setGroup gid (g.writeV reg lanes fun _ => value.extractLsb' 0 32)).answer codeOk
        | 1 => if 64 ≤ reg then s.answerUnstated else (s.setGroup gid (g.setS reg value)).answer codeOk
        | 2 => (s.setGroup gid { g with fmode := value.extractLsb' 0 32 &&& 1 }).answer codeOk
        | _ => s.answerUnstated

end Sys2Proof.Machine
end

