-- ==== Sys2Proof/Machine/Device.lean ====
section
/-!
DEFINITION. The device as the host meets it (01_device.md R17; 20_host_power.md R403 to R409): bring-up, operating points,
sensors, limits, unit failures and the device commands.
-/
namespace Sys2Proof.Machine

/-- Islands of the package (R10). -/
def islandCount : Nat := 128

/-! ### Bring-up (R405, R406) -/

/-- A signed image: its last 2,420 bytes are the signature (R405, log 44). -/
def imageBody (image : List Byte) : List Byte := image.take (image.length - 2420)

/-- The firmware key's signature over the image's digest verifies (R405). -/
def imageValid (image : List Byte) : Bool :=
  mldsaVerify Config.firmwareKey (sha3 (imageBody image)) (image.drop (image.length - 2420))

/-- The measurement after the ROM has extended it with an image's digest (R405, log 13). -/
def measureOf (image : List Byte) : List Byte := sha3 (List.replicate 32 0 ++ sha3 (imageBody image))

/-- PACKAGE_RESET: everything returns to its reset condition, but for flash, what is not the package's (host memory and the
stores of others) and the model's own fields; the ROM measures and verifies the firmware image, and goes on to HBM training
or to recovery (R405). -/
def execPackageReset (s : State) : Out :=
  let ok := imageValid s.pk.image
  .next { State.reset with
    pk := { Package.reset with
      image := s.pk.image
      measurement := measureOf s.pk.image
      phase := if ok then .hbmTraining else .recovery }
    mem := s.mem.filter fun c => 2 ^ 60 ≤ c.1
    agenda := s.agenda
    nextId := s.nextId
    freeCtr := s.freeCtr }

/-- HBM_TRAINING_DONE: the compute dies are released, every island at point 0 with its cycle count and the time stamp at
zero, and each island begins its change to point 2 (R406). -/
def execHbmTrainingDone (s : State) : Out :=
  if s.pk.phase != .hbmTraining then .refused .notEnabled
  else
    .next { s with
      pk := { s.pk with phase := .release, gts := 0 }
      islands := (List.range islandCount).map fun i => (i, { Island.reset with setPoint := 2, change := some 2 }) }

/-! ### Operating points (R16, R17, R403, R407) -/

/-- The point an island is to run at: its set point, or the point it has been lowered to (R407, R409). -/
def Island.target (x : Island) : Nat :=
  match x.cap with
  | some c => min c x.setPoint
  | none => x.setPoint

/-- Begin the change an island is due, if no change is in progress (R407). -/
def Island.begin (x : Island) : Island :=
  if x.change.isNone && x.target != x.point then { x with change := some x.target } else x

/-- Change an island. -/
def State.modIsland (s : State) (i : Nat) (f : Island → Island) : State :=
  { s with islands := dset s.islands i (f (s.island i)) }

/-- ISLAND_SET (R403, R407). -/
def execIslandSet (island point : Nat) (s : State) : Out :=
  onCommand s (
    if islandCount ≤ island || 4 < point then s.answer codeBadPoint
    else (s.modIsland island fun x => ({ x with setPoint := point } : Island).begin).answer codeOk)

/-- A memory request of an operation has not returned: an access of a core under way, or one of a porter that is held or
asked of a peer (R17). -/
def Op.requestsOut (o : Op) : Bool :=
  match o.work with
  | .mem m => m.units.any fun u => u.st == .held || (u.st == .pending && (!m.kind.isPorter || u.req.isSome))
  | _ => false

/-- A core lies on an island. -/
def onIsland (island core : Nat) : Bool := islandOf core == island

/-- Lines of the group's registers are on their way to or from the arena (R145, R159). -/
def Group.linesOut (g : Group) : Bool :=
  !g.toLoad.isEmpty || g.splits.any fun sp =>
    match sp.st with
    | .blocked .spillWrite => true
    | _ => false

/-- An outbound request of a core of an island waits for its answer: a read of a waitc, or a fetch of code (R17). -/
def State.asksOut (s : State) (island : Nat) (q : OutReq) : Bool :=
  match q.purpose with
  | .waitc g _ => ((dget s.groups g).map fun g => onIsland island g.core).getD false
  | .fetch _ _ core => onIsland island core
  | _ => false

/-- Every group of an island stands at a clause boundary, no loom pass runs and every memory request has returned: those of
accesses, of code, of windows and of registers (R17). -/
def State.islandQuiet (s : State) (island : Nat) : Bool :=
  let running (t : Nat) : Bool := ((dget s.teams t).map Team.present).getD false
  (s.groups.all fun e => !onIsland island e.2.core || !running e.2.team || (e.2.stopped && !e.2.linesOut))
    && !((s.loom island).queue.any fun e => e.stage == 2)
    && !(s.flight.any fun e => onIsland island e.2.core && e.2.requestsOut)
    && !(s.teams.any fun e => onIsland island e.2.core && (e.2.copyingIn || e.2.copyingOut))
    && !(s.ports.any fun e => e.2.out.any (s.asksOut island))

/-- ISLAND_STOP: an island that is changing its point has stopped (R17). -/
def execIslandStop (island : Nat) (s : State) : Out :=
  let x := s.island island
  if islandCount ≤ island || x.change.isNone || x.stopped || !s.islandQuiet island then .refused .notEnabled
  else .next (s.modIsland island fun x => { x with stopped := true, stoppedNs := 0 })

/-- Every island runs at point 2 and changes no more (R406). -/
def State.islandsUp (s : State) : Bool :=
  (List.range islandCount).all fun i => (s.island i).point == 2 && (s.island i).change.isNone

/-- Nanoseconds within which an island resumes (R17). -/
def islandStopMax : Nat := 20000

/-- ISLAND_RESUME: more than zero and at most 20 µs after its stop the island resumes at its new point; cycles counted during the
stop, at most 20 µs at 750 MHz, are a free value. A change asked for since begins. In bring-up READY is set when every island has reached point 2 (R17, R406, R407,
log 5). -/
def execIslandResume (island : Nat) (s : State) : Out :=
  let x := s.island island
  match x.change with
  | some p =>
    if !x.stopped || x.stoppedNs = 0 || islandStopMax < x.stoppedNs then .refused .notEnabled
    else
      let lost := Config.freeNat s.freeCtr % 15000001
      let s1 := s.useFree.modIsland island fun x =>
        ({ x with point := p, change := none, stopped := false, stoppedNs := 0, cyc1000 := x.cyc1000 + lost } : Island).begin
      .next (if s1.pk.phase == .release && s1.islandsUp then { s1 with pk := { s1.pk with phase := .ready } } else s1)
  | none => .refused .notEnabled

/-! ### Sensors and limits (R408, R409) -/

/-- Package power exceeds the limit (R409). -/
def Package.overPower (p : Package) : Bool := p.limitW * 1000 < p.sensors.powerMw

/-- An island is above 105 °C (R409). -/
def Package.hot (p : Package) (island : Nat) : Bool := 840 < p.sensors.islandTemp.getD island 0

/-- Junction temperatures, in 0.125 °C (R408). -/
def junctions (b : Sensors) : List Nat := b.islandTemp ++ b.dieTemp ++ b.stackTemp

/-- Note since when the causes that lowered an island have cleared (R407). -/
def Island.noteCause (x : Island) (p : Package) (i : Nat) : Island :=
  if x.cap.isNone then x
  else if (x.byPower && p.overPower) || (x.byHeat && p.hot i) then { x with clearedAt := none }
  else { x with clearedAt := some (x.clearedAt.getD p.gts) }

/-- Note it of every island. -/
def State.noteCauses (s : State) : State :=
  { s with islands := s.islands.map fun e => (e.1, e.2.noteCause s.pk e.1) }

/-- The sensor block has an entry for each island, each of the five dies and each stack (R10, R408). -/
def sensorsWhole (b : Sensors) : Bool :=
  b.islandTemp.length == islandCount && b.dieTemp.length == 5 && b.stackTemp.length == Config.memStacks && b.islandMw.length == islandCount

/-- The last time at or before now that lies a whole number of periods after another. -/
def lastPeriod (since period now : Nat) : Nat := now - (now - since) % period

/-- The junctions that hold the package after a sample: those that have tripped and not fallen below 95 °C, and those above 115 °C
(R409). -/
def heldBy (tripped : List Nat) (js : List Nat) : List Nat :=
  (List.range js.length).filter fun i => 920 < js.getD i 0 || (tripped.contains i && 760 ≤ js.getD i 0)

/-- SENSOR_SAMPLE: each 1 ms the sensors are sampled. A junction above 115 °C raises vector 1 and holds the package until it falls below
95 °C (R408, R409). -/
def execSensorSample (block : Sensors) (s : State) : Out :=
  if s.pk.gts < s.pk.sampledAt + 1000000 || (s.pk.phase != .ready && s.pk.phase != .release) || !sensorsWhole block then .refused .notEnabled
  else
    let held := heldBy s.pk.tripped (junctions block)
    let s1 : State := { s with pk := { s.pk with
      sensors := block, sampledAt := lastPeriod s.pk.sampledAt 1000000 s.pk.gts, tripped := held } }
    .next (if held.any fun i => !s.pk.tripped.contains i then s1.noteCauses.signal 1 else s1.noteCauses)

/-- Lower an island by one point, for a cause (R409). -/
def Island.lower (x : Island) (power heat : Bool) : Island :=
  if x.target = 0 then { x with byPower := x.byPower || (power && x.cap.isSome), byHeat := x.byHeat || (heat && x.cap.isSome) }
  else
    ({ x with cap := some (x.target - 1), byPower := x.byPower || power, byHeat := x.byHeat || heat,
              clearedAt := none } : Island).begin

/-- The island of the highest power among those above point 0, if any (R409). -/
def State.highestPower (s : State) : Option Nat :=
  let w (i : Nat) : Nat := s.pk.sensors.islandMw.getD i 0
  (List.range islandCount).foldl (fun b i =>
    if (s.island i).point = 0 then b
    else
      match b with
      | none => some i
      | some j => if w j < w i then some i else some j) none

/-- POWER_LIMIT_STEP: every 10 ms, the highest-power island is lowered by one point while the package is over its limit, and
every island above 105 °C is lowered by one; one island is lowered once (R409). -/
def execPowerLimitStep (s : State) : Out :=
  if s.pk.gts < s.pk.limitAt + 10000000 || s.pk.phase != .ready then .refused .notEnabled
  else
    let top := if s.pk.overPower then s.highestPower else none
    let s1 : State := { s with pk := { s.pk with limitAt := lastPeriod s.pk.limitAt 10000000 s.pk.gts } }
    .next ((List.range islandCount).foldl (fun s i =>
      let power := top == some i
      let heat := s.pk.hot i
      if power || heat then s.modIsland i fun x => x.lower power heat else s) s1)

/-- SET_POINT_RESTORE: the cause has cleared for 100 ms, and the island returns to its set point (R407). -/
def execSetPointRestore (island : Nat) (s : State) : Out :=
  let x := s.island island
  match x.cap, x.clearedAt with
  | some _, some n =>
    if s.pk.gts < n + 100000000 then .refused .notEnabled
    else
      .next (s.modIsland island fun x =>
        ({ x with cap := none, byPower := false, byHeat := false, clearedAt := none } : Island).begin)
  | _, _ => .refused .notEnabled

/-- PWR_LIMIT (R403, R409). -/
def execPwrLimit (watts : Nat) (s : State) : Out :=
  onCommand s (
    if watts < 1000 || 2800 < watts then s.answer codeBadPoint
    else (({ s with pk := { s.pk with limitW := watts } } : State).noteCauses).answer codeOk)

/-- SENSOR_READ: the sensor block, with the point each island runs at (R408, log 12). -/
def execSensorRead (s : State) : Out :=
  onCommand s (
    let b := s.pk.sensors
    let points := (List.range islandCount).map fun i => (s.island i).point
    .next (s.respond codeOk
      ((b.islandTemp ++ b.dieTemp ++ b.stackTemp ++ [b.powerMw, b.coolIn, b.coolOut] ++ points).map (BitVec.ofNat 64)) []))

/-! ### Identity, attestation, firmware, failures (R403 to R405) -/

/-- Units of a kind (R10). -/
def unitCount (k : UnitKind) : Nat :=
  match k with
  | .core => Config.cores
  | .loom => islandCount
  | .stack => Config.memStacks
  | .port => 16

/-- UNIT_FAILURE: the unit enters the failed-unit list and vector 1 is raised (R404). -/
def execUnitFailure (kind : UnitKind) (id : Nat) (s : State) : Out :=
  if unitCount kind ≤ id || s.unitFailed kind id then .refused .notEnabled
  else .next (({ s with pk := { s.pk with failed := s.pk.failed ++ [(kind, id)] } } : State).signal 1)

/-- A command that recovery accepts too (R405). -/
def onRecovery (s : State) (k : Out) : Out :=
  match s.pk.phase with
  | .ready => k
  | .recovery => k
  | _ => .refused .notEnabled

/-- The code of a kind of unit in the failed-unit list (log 12). -/
def unitCode (k : UnitKind) : Nat :=
  match k with
  | .core => 0
  | .loom => 1
  | .stack => 2
  | .port => 3

/-- DEV_INFO: the identity and the failed-unit list (R9, R403, log 12). -/
def execDevInfo (s : State) : Out :=
  onRecovery s
    (.next (s.respond codeOk (s.pk.failed.map fun u => BitVec.ofNat 64 (unitCode u.1 * 2 ^ 32 + u.2)) Config.deviceIdentity))

/-- DEV_ATTEST: the 128 B report and its signature (R405, log 13). -/
def execDevAttest (nonce : List Byte) (s : State) : Out :=
  onCommand s (
    if nonce.length != 32 then s.answerUnstated
    else
      let report := nonce ++ fit 32 s.pk.measurement ++ fit 32 Config.steppings ++ sha3 Config.deviceKey
      .next (s.respond codeOk [] (report ++ fit 2420 (Config.attestSign report))))

/-- FW_UPDATE: a verified image is stored for the next reset (R403, R405). -/
def execFwUpdate (image : List Byte) (s : State) : Out :=
  onRecovery s (
    if imageValid image then ({ s with pk := { s.pk with image := image } } : State).answer codeOk
    else s.answerUnstated)

end Sys2Proof.Machine
end

