-- ==== Sys2Proof/Machine/Porter.lean ====
section
/-!
DEFINITION. Class 5, the porter: layout records, the ten instructions, the accesses of a command, credits, batches and
streams (14_porters_batches.md R291 to R308). A command's global accesses stand as accesses of its operation in flight;
its window is read as the accesses are made and written at its completion.
-/
namespace Sys2Proof.Machine

/-! ### Layout records (R292, R293) -/

/-- A layout record, read (R292); strides and extents by dimension, 1 to 3 and 0 to 3. -/
structure Layout where
  gstr : List Int
  sstr : List Nat
  padv : Nat
  box : List Nat
  sfmt : Nat
  dfmt : Nat
  ndim : Nat
  swz : Nat
  sat : Bool
  rot : Bool
  cvt : Bool

/-- A signed field of 40 bits. -/
def signed40 (n : Nat) : Int := if 2 ^ 39 ≤ n then (n : Int) - (2 ^ 40 : Nat) else n

/-- Read a layout record (R292). -/
def layoutOf (r : BitVec 512) : Layout :=
  let f := lfield r
  { gstr := [signed40 (f 399 360), signed40 (f 439 400), signed40 (f 479 440)]
    sstr := [f 317 297, f 338 318, f 359 339]
    padv := f 287 256
    box := [f 171 160 + 1, f 183 172 + 1, f 195 184 + 1, f 207 196 + 1]
    sfmt := f 15 12, dfmt := f 11 8, ndim := f 7 6, swz := f 5 4
    sat := f 3 3 == 1, rot := f 2 2 == 1, cvt := f 1 1 == 1 }

/-- Extent of a dimension. -/
def Layout.extent (y : Layout) (d : Nat) : Nat := y.box.getD d 1

/-- Stride of dimension d ≥ 1 on the global side. -/
def Layout.gs (y : Layout) (d : Nat) : Int := y.gstr.getD (d - 1) 0

/-- Stride of dimension d ≥ 1 in the window. -/
def Layout.ss (y : Layout) (d : Nat) : Nat := y.sstr.getD (d - 1) 0

/-- Transfers into the window. -/
def PorterKind.inward (k : PorterKind) : Bool := k == .pcpy || k == .pgath

/-- Element size on the global side (R292). -/
def Layout.eg (y : Layout) (k : PorterKind) : Nat := typeBytes (if k.inward then y.sfmt else y.dfmt)

/-- Element size in the window (R292). -/
def Layout.es (y : Layout) (k : PorterKind) : Nat := typeBytes (if k.inward then y.dfmt else y.sfmt)

/-- Span of the swizzle (R292). -/
def Layout.span (y : Layout) : Nat := if y.swz = 0 then 1 else 16 * 2 ^ y.swz

/-- Clip of a dimension (R293). -/
def clipAt (c : DWord) (d : Nat) : Nat := (c.extractLsb' (16 * d) 16).toNat

/-- A row of the box: its indices in dimensions 1 to 3. -/
abbrev RowIx := Nat × Nat × Nat

/-- The rows of the box in ascending order (R293). -/
def Layout.rows (y : Layout) : List RowIx :=
  (List.range (y.extent 3)).flatMap fun i3 => (List.range (y.extent 2)).flatMap fun i2 =>
    (List.range (y.extent 1)).map fun i1 => (i1, i2, i3)

/-- Row number n of the box. -/
def Layout.rowAt (y : Layout) (n : Nat) : RowIx :=
  (n % y.extent 1, n / y.extent 1 % y.extent 2, n / y.extent 1 / y.extent 2)

/-- A whole row is padding (R293). -/
def Layout.rowPad (y : Layout) (c : DWord) (i : RowIx) : Bool :=
  (1 ≤ y.ndim && clipAt c 1 ≤ i.1) || (2 ≤ y.ndim && clipAt c 2 ≤ i.2.1) || (3 ≤ y.ndim && clipAt c 3 ≤ i.2.2)

/-- Elements of a row that are not padding (R293); a rotated row is whole (R294). -/
def Layout.rowLen (y : Layout) (c : DWord) : Nat := if y.rot then y.extent 0 else min (y.extent 0) (clipAt c 0)

/-- Global address of a row (R293). -/
def Layout.rowG (y : Layout) (g : Nat) (i : RowIx) : Nat :=
  (((g : Int) + i.1 * y.gs 1 + i.2.1 * y.gs 2 + i.2.2 * y.gs 3) % (2 ^ 64 : Nat)).toNat

/-- Window offset of element i0 of a row (R293). -/
def Layout.winAt (y : Layout) (k : PorterKind) (w : Nat) (i : RowIx) (i0 : Nat) : Nat :=
  let o := w + i0 * y.es k + i.1 * y.ss 1 + i.2.1 * y.ss 2 + i.2.2 * y.ss 3
  if y.swz = 0 then o else o ^^^ (i.1 % 2 ^ y.swz * 16)

/-- Convert one element (R294). -/
def Layout.move (y : Layout) (bits : Nat) : Nat :=
  if y.cvt then convert y.dfmt y.sfmt .rne y.sat false bits else bits

/-! ### Checks at issue (R295) -/

/-- What a check gives: a trap with its detail, or a cause with its address. -/
inductive PorterBad where
  | trap (code detail : Nat)
  | cause (c va : Nat)

/-- Step 1 (R295): records and lists, each at an offset with its alignment and bytes. -/
def checkPlaces (t : Team) (xs : List (Nat × Nat × Nat)) : Option PorterBad :=
  match xs.find? fun x => x.1 % x.2.1 != 0 with
  | some x => some (.cause causeMisaligned x.1)
  | none => (xs.find? fun x => t.wsize < x.1 + x.2.2).map fun x => .cause causeScratch x.1

/-- The strides of one side keep its rows apart (R295). -/
def disjoint (y : Layout) (e : Nat) (str : Nat → Nat) : Bool :=
  (y.ndim < 1 || y.extent 0 * e ≤ str 1) && (y.ndim < 2 || y.extent 1 * str 1 ≤ str 2)
    && (y.ndim < 3 || y.extent 2 * str 2 ≤ str 3)

/-- The range rules of step 2 for a layout record and a window offset (R295). -/
def layoutOk (r : BitVec 512) (k : PorterKind) (w : Nat) : Bool :=
  let y := layoutOf r
  let z := y.span
  lfield r 511 480 == 0 && lfield r 296 288 == 0 && lfield r 255 208 == 0 && lfield r 159 16 == 0 && lfield r 0 0 == 0
    && y.sfmt ≤ 12 && y.dfmt ≤ 12 && (y.cvt || y.rot || y.dfmt == y.sfmt)
    && ([1, 2, 3].all fun d => d ≤ y.ndim || y.extent d == 1)
    && (!y.rot || (k == .pcpy && y.sfmt ≤ 4 && y.dfmt ≤ 4))
    && ([1, 2, 3].all fun d => (y.gs d).natAbs % y.eg k == 0)
    && (y.swz == 0 || (w % z == 0 && y.ss 1 % z == 0))
    && disjoint y (y.es k) y.ss
    && (k.inward || disjoint y (y.eg k) fun d => (y.gs d).natAbs)

/-- The rules a gather or scatter adds (R298). -/
def listOk (y : Layout) (si : DWord) (n pool : Nat) (wt : Bool) : Bool :=
  si.extractLsb' 54 10 == 0 && y.ndim == 1 && y.extent 1 == 1 && y.extent 2 == 1 && y.extent 3 == 1
    && n % pool == 0 && ((!wt && pool == 1) || (y.sfmt ≤ 4 && y.dfmt ≤ 4))

/-- End of the window range of step 4 (R295), for `rows` rows in dimension 1. -/
def Layout.windowEnd (y : Layout) (k : PorterKind) (w rows : Nat) : Nat :=
  let z := y.span
  w + (rows - 1) * y.ss 1 + (y.extent 2 - 1) * y.ss 2 + (y.extent 3 - 1) * y.ss 3
    + (y.extent 0 * y.es k + z - 1) / z * z

/-- Step 4 (R295). -/
def checkWindow (t : Team) (y : Layout) (k : PorterKind) (rows w : Nat) : Option PorterBad :=
  if t.wsize < y.windowEnd k w rows then some (.cause causeScratch w) else none

/-- Step 5 (R295). -/
def checkBase (y : Layout) (k : PorterKind) (g : Nat) : Option PorterBad :=
  if g % y.eg k != 0 then some (.cause causeMisaligned g)
  else if !canonical g then some (.cause causeNotMapped g)
  else none

/-- The first check that fails. -/
def firstBad (cs : List (Option PorterBad)) : Option PorterBad := cs.foldl (fun a c => a.orElse fun _ => c) none

/-- A RESERVED_FIELD trap where a rule fails. -/
def rule (ok : Bool) : Option PorterBad := if ok then none else some (.trap trapReservedField 0)

/-- A barrier at or above NBAR (R274, R295 step 3). -/
def checkBarrier (nbar : Nat) (cr : Bool) (bk : Nat) : Option PorterBad :=
  if cr && nbar ≤ bk then some (.trap trapBarrierMisuse (misuse bk 2)) else none

/-! ### The accesses of a command -/

/-- A byte range cut at 64 B sectors: address and bytes of each piece. -/
def cutSectors (fuel a n : Nat) : List (Nat × Nat) :=
  match fuel with
  | 0 => []
  | f + 1 =>
    if n = 0 then []
    else
      let m := min n (64 - a % 64)
      (a % 2 ^ 64, m) :: cutSectors f (a + m) (n - m)

/-- A read of one 64 B sector. -/
def readUnit (a : Nat) : Access := ⟨0, 0, a / 64 * 64, 64, [], [], .pending, none, none, false⟩

/-- A write of a piece of row n. -/
def writeUnit (n : Nat) (p : Nat × Nat) : Access := ⟨0, n + 1, p.1, p.2, [], [], .pending, none, none, false⟩

/-- Reads of every sector of some byte ranges, once each (R297). -/
def readUnits (rs : List (Nat × Nat)) : List Access :=
  ((rs.flatMap fun r => (cutSectors (r.2 / 64 + 2) r.1 r.2).map fun p => p.1 / 64 * 64).eraseDups).map readUnit

/-- Writes of byte ranges, with their row numbers. -/
def writeUnits (rs : List (Nat × Nat × Nat)) : List Access :=
  rs.flatMap fun r => (cutSectors (r.2.2 / 64 + 2) r.2.1 r.2.2).map (writeUnit r.1)

/-- An access that stops its command as soon as it starts. -/
def badUnit (cause a : Nat) : Access := { readUnit a with st := .failed cause }

/-- Index value that skips (R298). -/
def skipIndex : Nat := 0xFFFFFFFF

/-- Table row of an index (R298). -/
def PorterCmd.tableRow (c : PorterCmd) (y : Layout) (ix : Nat) : Nat := y.rowG c.g (ix, 0, 0)

/-- The accesses of a command (R297, R298, R299). A pquant's reads and writes cover the rows of its blocks. -/
def PorterCmd.units (c : PorterCmd) : List Access :=
  let y := layoutOf c.layout
  match c.kind with
  | .pcpy =>
    readUnits ((y.rows.filter fun i => !y.rowPad c.clip i).map fun i => (y.rowG c.g i, y.rowLen c.clip * y.eg .pcpy))
  | .pput =>
    writeUnits (((y.rows.zipIdx).filter fun x => !y.rowPad c.clip x.1).map fun x =>
      (x.2, y.rowG c.g x.1, y.rowLen c.clip * y.eg .pput))
  | .pgath =>
    readUnits ((c.rows.filter fun k => k != skipIndex).map fun k => (c.tableRow y k, y.extent 0 * y.eg .pgath))
  | .pscat =>
    writeUnits (((c.rows.zipIdx).filter fun x => x.1 != skipIndex).map fun x =>
      (x.2, c.tableRow y x.1, y.extent 0 * y.eg .pscat))
  | .pquant =>
    -- rows holds format, row length and rows of the source
    let n := c.rows.getD 1 0 * c.rows.getD 2 0
    readUnits [(c.g, n * typeBytes (c.rows.getD 0 0))] ++ writeUnits [(0, c.w, n * typeBytes c.fmt)]

/-- Bytes a command credits (R302). -/
def PorterCmd.bytes (c : PorterCmd) : Nat :=
  let y := layoutOf c.layout
  let written := (c.units.filter fun u => u.half != 0).foldl (fun n u => n + u.n) 0
  match c.kind with
  | .pcpy => y.extent 0 * y.extent 1 * y.extent 2 * y.extent 3 * y.es .pcpy
  | .pgath => c.rows.length / c.pool * y.extent 0 * y.es .pgath
  | _ => written

/-! ### What a command moves (R293, R294, R298, R299) -/

/-- A number from the window of a team. -/
def State.winNat (s : State) (t : Team) (off n : Nat) : Nat := leNat (s.windowBytes t off n)

/-- A byte a command has read. -/
def readByte (us : List Access) (a : Nat) : Byte :=
  match us.find? fun u => u.half == 0 && u.addr ≤ a && a < u.addr + u.n with
  | some u => u.got.getD (a - u.addr) 0
  | none => 0

/-- A number a command has read. -/
def readNat (us : List Access) (a n : Nat) : Nat := leNat ((List.range n).map fun i => readByte us ((a + i) % 2 ^ 64))

/-- Element e of a row that a write carries, as its bits (R293, R298, R299). -/
def State.porterElem (s : State) (t : Team) (c : PorterCmd) (us : List Access) (row e : Nat) : Nat :=
  let y := layoutOf c.layout
  match c.kind with
  | .pput => y.move (s.winNat t (y.winAt .pput c.w (y.rowAt row) e) (y.es .pput))
  | .pscat => y.move (s.winNat t (y.winAt .pscat c.w (row, 0, 0) e) (y.es .pscat))
  | .pquant =>
    let f := c.rows.getD 0 0
    let x := widen f (readNat us (c.g + e * typeBytes f) (typeBytes f))
    convert c.fmt 0 .rne true false (fmul32 .rne false x c.scale).toNat
  | _ => 0

/-- Global address at which row n of the writes starts, and its element size. -/
def PorterCmd.writeRow (c : PorterCmd) (n : Nat) : Nat × Nat :=
  let y := layoutOf c.layout
  match c.kind with
  | .pput => (y.rowG c.g (y.rowAt n), y.eg .pput)
  | .pscat => (c.tableRow y (c.rows.getD n 0), y.eg .pscat)
  | _ => (c.w, typeBytes c.fmt)

/-- The data of a write access (R297 to R299). -/
def State.porterData (s : State) (t : Team) (c : PorterCmd) (us : List Access) (u : Access) : List Byte :=
  let row := u.half - 1
  let (g, e) := c.writeRow row
  let off := (u.addr + 2 ^ 64 - g) % 2 ^ 64
  let first := off / e
  let last := (off + u.n - 1) / e
  let bs := (List.range (last - first + 1)).flatMap fun i => leBytes e (s.porterElem t c us row (first + i))
  (bs.drop (off - first * e)).take u.n

/-- A row at an address starts at a row of a block of so many bytes with a descriptor that fits the record (R294, R340). -/
def Layout.fits (y : Layout) (va size : Nat) (b : Block1) (g : Nat) : Bool :=
  let off := g - va
  b.fmt ≤ 4 && b.fmt == y.sfmt && b.dm1 + 1 == y.extent 0 && off % b.rowBytes == 0 && (off / b.rowBytes + 1) * b.rowBytes ≤ size

/-- The block a command has bound for a row: its VA, its bytes and its descriptor. -/
def PorterCmd.boundAt (c : PorterCmd) (g : Nat) : Option (Nat × Nat × Block1) :=
  c.descs.find? fun d => d.1 ≤ g && g < d.1 + d.2.1

/-- The bytes of a row of a rotating pcpy overlap an access. -/
def rowMeets (g n : Nat) (u : Access) : Bool :=
  (cutSectors (n / 64 + 2) g n).any fun p => p.1 < u.addr + u.n && u.addr < p.1 + p.2

/-- The rows of a rotating pcpy that an access reads from, by their addresses. -/
def PorterCmd.rotRows (c : PorterCmd) (u : Access) : List Nat :=
  let y := layoutOf c.layout
  if c.kind == .pcpy && y.rot then
    ((y.rows.filter fun i => !y.rowPad c.clip i).map (y.rowG c.g)).filter fun g => rowMeets g (y.extent 0 * y.eg .pcpy) u
  else []

/-- A command binds the descriptor of each block at the first row it reads from it (R340): the command, or none for a row that
fits no block. -/
def PorterCmd.bindRows (x : Ctx) (c : PorterCmd) : List Nat → Option PorterCmd
  | [] => some c
  | g :: gs =>
    let y := layoutOf c.layout
    match c.boundAt g, x.allocAt g with
    | some d, _ => if y.fits d.1 d.2.1 d.2.2 g then PorterCmd.bindRows x c gs else none
    | none, some (va, p, b) =>
      if y.fits va p.size b g then PorterCmd.bindRows x { c with descs := c.descs ++ [(va, p.size, b)] } gs else none
    | none, none => none

/-- Element i0 of a row of a pcpy, as stored in the window (R293, R294). -/
def State.pcpyElem (s : State) (asid : Nat) (c : PorterCmd) (us : List Access) (i : RowIx) (i0 : Nat) : Nat :=
  let y := layoutOf c.layout
  let g := y.rowG c.g i
  let e := y.eg .pcpy
  if y.rowPad c.clip i || y.rowLen c.clip ≤ i0 then y.padv
  else if y.rot then
    match c.boundAt g with
    | some (va, _, b) =>
      convert y.dfmt 0 .rne true false
        (rotElem (s.freqOf asid) (b.dm1 + 1) b.fmt i0 (b.pb + BitVec.ofNat 64 ((g - va) / b.rowBytes))
          fun j => readNat us (g + j * e) e).toNat
    | none => y.padv
  else y.move (readNat us ((g + i0 * e) % 2 ^ 64) e)

/-- Column i0 of output row r of a pgath (R298). -/
def PorterCmd.gathElem (c : PorterCmd) (us : List Access) (r i0 : Nat) : Nat :=
  let y := layoutOf c.layout
  let e := y.eg .pgath
  let elem (k : Nat) : Nat := readNat us ((c.tableRow y k + i0 * e) % 2 ^ 64) e
  if !c.wt && c.pool == 1 then
    let k := c.rows.getD r skipIndex
    if k == skipIndex then y.padv else y.move (elem k)
  else
    let acc := (List.range c.pool).foldl (fun (a : Word) j =>
      let k := c.rows.getD (r * c.pool + j) skipIndex
      if k == skipIndex then a
      else ffma32 .rne false (if c.wt then c.weights.getD (r * c.pool + j) 0 else 0x3F800000) (widen y.sfmt (elem k)) a) 0
    convert y.dfmt 0 .rne y.sat false acc.toNat

/-- The bytes of a range have been read. -/
def haveRead (us : List Access) (a n : Nat) : Bool :=
  (cutSectors (n / 64 + 2) a n).all fun p =>
    us.all fun u => u.half != 0 || u.st == .done || u.addr + u.n ≤ p.1 || p.1 + p.2 ≤ u.addr

/-- The global bytes that a window element is made of have been read (R229). -/
def PorterCmd.elemHere (c : PorterCmd) (us : List Access) (i : RowIx) (i0 : Nat) : Bool :=
  let y := layoutOf c.layout
  let e := y.eg c.kind
  match c.kind with
  | .pcpy =>
    y.rowPad c.clip i || y.rowLen c.clip ≤ i0
      || (if y.rot then haveRead us (y.rowG c.g i) (y.extent 0 * e) else haveRead us ((y.rowG c.g i + i0 * e) % 2 ^ 64) e)
  | .pgath =>
    (List.range c.pool).all fun j =>
      let k := c.rows.getD (i.1 * c.pool + j) skipIndex
      k == skipIndex || haveRead us ((c.tableRow y k + i0 * e) % 2 ^ 64) e
  | _ => false

/-- What a command writes into its window: offset and bytes of each element (R293, R298). -/
def State.porterWindow (s : State) (asid : Nat) (c : PorterCmd) (us : List Access) : List (Nat × List Byte) :=
  let y := layoutOf c.layout
  match c.kind with
  | .pcpy => y.rows.flatMap fun i => (List.range (y.extent 0)).map fun i0 =>
      (y.winAt .pcpy c.w i i0, leBytes (y.es .pcpy) (s.pcpyElem asid c us i i0))
  | .pgath => (List.range (c.rows.length / c.pool)).flatMap fun r => (List.range (y.extent 0)).map fun i0 =>
      (y.winAt .pgath c.w (r, 0, 0) i0, leBytes (y.es .pgath) (c.gathElem us r i0))
  | _ => []

/-- The elements of the window that an aligned word of it meets, and for each whether what it is made of has been read. -/
def PorterCmd.wordElems (c : PorterCmd) (us : List Access) (word : Nat) : List Bool :=
  let y := layoutOf c.layout
  let meets (o n : Nat) : Bool := o < 4 * word + 4 && 4 * word < o + n
  match c.kind with
  | .pcpy => y.rows.flatMap fun i => (List.range (y.extent 0)).filterMap fun i0 =>
      if meets (y.winAt .pcpy c.w i i0) (y.es .pcpy) then some (c.elemHere us i i0) else none
  | .pgath => (List.range (c.rows.length / c.pool)).flatMap fun r => (List.range (y.extent 0)).filterMap fun i0 =>
      if meets (y.winAt .pgath c.w (r, 0, 0) i0) (y.es .pgath) then some (c.elemHere us (r, 0, 0) i0) else none
  | _ => []

/-- Bytes of window elements go to a team's window: those of one aligned word, or of every word but those written already (R229). -/
def State.writeWindow (s : State) (t : Team) (p : Nat → Bool) (xs : List (Nat × List Byte)) : State :=
  { s with mem := xs.foldl (fun m x =>
      (x.2.zipIdx).foldl (fun m (b, i) =>
        if p ((x.1 + i) / 4) then m.write (scratchKey t.core (t.wbase + x.1 + i)) b else m) m) s.mem }

/-- A word of the window that is still to be written, in a naturally aligned piece of 64 bytes of which some word has been (log 57). -/
def begunWord (moved : List Nat) (w : Nat) : Bool := !moved.contains w && moved.any fun x => x / 16 == w / 16

/-- A write still to be made is the rest of a piece of 64 bytes that has been begun (R308, log 57). -/
def MemWork.begun (m : MemWork) (u : Access) : Bool :=
  u.half != 0 && u.waits && m.units.any fun v => v.half == u.half && v.st == .done && v.addr / 64 == u.addr / 64

/-! ### Issue -/

/-- Some access of the group to scratchpad that precedes the instruction has not been performed: the record it reads could
still change (R239). -/
def Run.windowBusy (r : Run) (s : State) : Bool :=
  r.sp.past.any fun w =>
    match dget s.flight w with
    | some o =>
      match o.work with
      | .mem m => m.space != .global && !m.isOver
      | _ => false
    | none => false

/-- The porter's queue is full: no porter instruction issues (R291). -/
def Run.porterFull (r : Run) (s : State) : Bool := 64 ≤ (s.core r.t.core).porter.length

/-- A failed check of R295: its trap, or its cause in every lane of the issue mask. -/
def Run.porterFail (r : Run) (s : State) (acc : AccType) : PorterBad → Out
  | .trap code detail => r.trap s code detail
  | .cause c va =>
    let lanes := lanesOf r.act
    let recs := if c ≤ 7 then s.records r.t.core r.t acc (lanes.map fun l => (l, va, c)) else []
    let s1 := s.toSieve r.t.core r.gid s.nextId recs
    let (s2, r1) := r.dropFaulted s1 (fun _ => c) (fun _ => va)
    r1.finish s2 r1.g

/-- A command joins its group's open batch, which opens where there is none (R303). -/
def Group.joinBatch (g : Group) (sp : Split) (word : Word) (cmd : Option Nat) (credit : Option (Nat × Nat)) : Group :=
  let b := g.batchOpen.getD ⟨0, [], [], false, sp.hdr, sp.pos + 1, word⟩
  { g with batchOpen := some { b with cmds := b.cmds ++ cmd.toList, credits := b.credits ++ credit.toList } }

/-- A command enters the porter's queue; its accesses wait for the group's acquires (R291, R306). -/
def Run.porterStart (r : Run) (s : State) (dc : DcField) (c : PorterCmd) (us : List Access) : Out :=
  let id := s.nextId
  let g := r.g.joinBatch r.sp r.word (some id) none
  let m : MemWork := ⟨.pread, .global, 0, 0, false, false, 0, 0, 1, us⟩
  let s1 := r.issueOp s g .porter (dcOf dc) (s.acquiring r.gid) (.mem m) [] []
  .next (s1.modCore r.t.core fun x => { x with porter := x.porter ++ [{ c with op := id }] })

/-- A porter instruction that puts a command in the queue: it waits for room, for its counter and for the window; then
its checks decide (R291, R295). -/
def Run.porterIssue (r : Run) (s : State) (dc : DcField) (acc : AccType) (bad : Option PorterBad) (c : PorterCmd)
    (us : Unit → List Access) : Out :=
  if r.full (dcOf dc) || r.porterFull s || r.windowBusy s || !(s.markedIn r.gid 4).isEmpty then r.stall s
  else
    match bad with
    | some b => r.porterFail s acc b
    | none => r.porterStart s dc c (us ())

/-- A record of 64 B of a team's window. -/
def State.winRecord (s : State) (t : Team) (off : Nat) : BitVec 512 := BitVec.ofNat 512 (s.winNat t off 64)

/-- pcpy and pput (R295, R297). -/
def porterCopy (k : PorterKind) (p : Pw) (clip : SReg) (cr : Bit) (bk : BitVec 4) (s : State) : Out :=
  onRun s fun r =>
    let g := (r.sx p.sa).toNat
    let wv := r.sx p.sb
    let w := wv.toNat % 2 ^ 21
    let lo := (r.sx p.sc).toNat % 2 ^ 21
    let rcd := s.winRecord r.t lo
    let y := layoutOf rcd
    let c : PorterCmd := ⟨0, k, r.tid, g, w, rcd, r.sx clip, [], [], false, 1, 0, 0,
      if cr.toNat == 1 then some bk.toNat else none, false, none, [], [], []⟩
    let bad := firstBad [checkPlaces r.t [(lo, 16, 64)], rule (wv.toNat < 2 ^ 21 && layoutOk rcd k w),
      checkBarrier (s.nbarOf r.t) (cr.toNat == 1) bk.toNat, checkWindow r.t y k (y.extent 1) w, checkBase y k g]
    r.porterIssue s p.dc (if k == .pcpy then .read else .write) bad c fun _ => c.units

/-- pcpy (R297). -/
def execPcpy (w : Pw) (clip : SReg) (cr : Bit) (bk : BitVec 4) (s : State) : Out := porterCopy .pcpy w clip cr bk s
/-- pput (R297). -/
def execPput (w : Pw) (clip : SReg) (cr : Bit) (bk : BitVec 4) (s : State) : Out := porterCopy .pput w clip cr bk s

/-- The words of a list in the window. -/
def State.winWords (s : State) (t : Team) (off n : Nat) : List Nat := (List.range n).map fun i => s.winNat t (off + 4 * i) 4

/-- pgath and pscat (R295, R298): the lists are read here. -/
def porterList (k : PorterKind) (p : Pw) (si : SReg) (cr : Bit) (bk : BitVec 4) (wt : Bool) (pool : Nat) (s : State) : Out :=
  onRun s fun r =>
    let g := (r.sx p.sa).toNat
    let wv := r.sx p.sb
    let w := wv.toNat % 2 ^ 21
    let lo := (r.sx p.sc).toNat % 2 ^ 21
    let rcd := s.winRecord r.t lo
    let y := layoutOf rcd
    let iv := r.sx si
    let n := (iv.extractLsb' 42 12).toNat + 1
    let woff := (iv.extractLsb' 21 21).toNat
    let ioff := (iv.extractLsb' 0 21).toNat
    let c : PorterCmd := ⟨0, k, r.tid, g, w, rcd, BitVec.allOnes 64, s.winWords r.t ioff n,
      if wt then (s.winWords r.t woff n).map (BitVec.ofNat 32) else [], wt, pool, 0, 0,
      if cr.toNat == 1 then some bk.toNat else none, false, none, [], [], []⟩
    let lists := if wt then [(ioff, 4, 4 * n), (woff, 4, 4 * n)] else [(ioff, 4, 4 * n)]
    let bad := firstBad [checkPlaces r.t ((lo, 16, 64) :: lists), rule (wv.toNat < 2 ^ 21 && layoutOk rcd k w && listOk y iv n pool wt),
      checkBarrier (s.nbarOf r.t) (cr.toNat == 1) bk.toNat, checkWindow r.t y k (n / pool) w, checkBase y k g]
    r.porterIssue s p.dc (if k == .pgath then .read else .write) bad c fun _ => c.units

/-- pgath (R298). -/
def execPgath (w : Pw) (si : SReg) (cr : Bit) (bk : BitVec 4) (wt : Bit) (pg : BitVec 6) (s : State) : Out :=
  porterList .pgath w si cr bk (wt.toNat == 1) (pg.toNat + 1) s
/-- pscat (R298). -/
def execPscat (w : Pw) (si : SReg) (cr : Bit) (bk : BitVec 4) (s : State) : Out := porterList .pscat w si cr bk false 1 s

/-- Rows of a block by its descriptor (R337). -/
def blockRows (p : Pool) (b : Block1) : Nat := p.size / b.rowBytes

/-- pquant (R299): blocks that do not serve stop the command with NOT_MAPPED. -/
def execPquant (w : Pw) (dfmt : BitVec 4) (cr : Bit) (bk : BitVec 4) (s : State) : Out :=
  onRun s fun r =>
    let src := (r.sx w.sa).toNat
    let dst := (r.sx w.sb).toNat
    let blk (va : Nat) : Option (Pool × Block1) :=
      ((dget s.ctxs r.t.asid).bind fun c => c.allocAt va).bind fun x => if x.1 == va then some x.2 else none
    let bk' := if cr.toNat == 1 then some bk.toNat else none
    let base : PorterCmd := ⟨0, .pquant, r.tid, src, dst, 0, 0, [0, 0, 0], [], false, 1, dfmt.toNat,
      (r.sx w.sc).extractLsb' 0 32, bk', false, none, [], [], []⟩
    let plan : PorterCmd × List Access :=
      match blk src, blk dst with
      | some (p, b), some (q, _) =>
        let n := blockRows p b
        let c := { base with rows := [b.fmt, b.dm1 + 1, n], clip := b.pb }
        if n * (b.dm1 + 1) * typeBytes dfmt.toNat ≤ q.size then (c, c.units) else (c, [badUnit causeNotMapped dst])
      | none, _ => (base, [badUnit causeNotMapped src])
      | some _, none => (base, [badUnit causeNotMapped dst])
    r.porterIssue s w.dc .write (checkBarrier (s.nbarOf r.t) (cr.toNat == 1) bk.toNat) plan.1 fun _ => plan.2

/-! ### Streams (R300, R301) -/

/-- The reserved bits of a ring record are zero (R300). -/
def ringOk (r : BitVec 512) : Bool := lfield r 511 320 == 0 && lfield r 279 256 == 0 && lfield r 160 8 == 0

/-- Window offset of slot k (R300). -/
def ringSlot (r : BitVec 512) (k : Nat) : Nat := lfield r 202 182 + k * lfield r 223 203

/-- pstream (R300). The layout record of a tile is looked for only where the ring record lies in the window; the steps of R295 go one
after the other over all slots. -/
def execPstream (w : Pw) (clip : SReg) (s : State) : Out :=
  onRun s fun r =>
    let g := (r.sx w.sb).toNat
    let ro := (r.sx w.sc).toNat % 2 ^ 21
    let ring := s.winRecord r.t ro
    let lo := lfield ring 181 161
    let rcd := s.winRecord r.t lo
    let y := layoutOf rcd
    let slots := List.range (ringSlots ring)
    let nbar := s.nbarOf r.t
    let b0 := ringBarrier ring
    let notReserved := (slots.find? fun k => nbar ≤ b0 + k).map fun k =>
      PorterBad.trap trapBarrierMisuse (misuse ((b0 + k) % 16) 2)
    let unarmed := (slots.find? fun k => !(r.t.barrier (b0 + k)).armed).map fun k =>
      PorterBad.trap trapBarrierMisuse (misuse ((b0 + k) % 16) 1)
    let bad := firstBad ([checkPlaces r.t [(ro, 16, 64)], checkPlaces r.t [(lo, 16, 64)],
      rule (ringOk ring && slots.all fun k => layoutOk rcd .pcpy (ringSlot ring k)), notReserved, unarmed]
      ++ (slots.map fun k => checkWindow r.t y .pcpy (y.extent 1) (ringSlot ring k)) ++ [checkBase y .pcpy g])
    if r.full (dcOf w.dc) || r.porterFull s || r.windowBusy s || !(s.markedIn r.gid 4).isEmpty then r.stall s
    else
      match bad with
      | some b => r.porterFail s .read b
      | none =>
        match (List.range 8).find? fun k => (dget (s.core r.t.core).streams k).isNone with
        | none => .next (r.issueOp s r.g .porter (dcOf w.dc) [] .none [] [(w.sa.toNat, BitVec.allOnes 64)])
        | some k =>
          let id := s.nextId
          let st : Stream := ⟨r.tid, r.gid, id, ring, rcd, g, r.sx clip,
            slots.map (fun k => (r.t.barrier (b0 + k)).phase), 0, none, none, r.act, r.sp.hdr, r.sp.pos + 1, r.word,
            r.sp.past.filter (fun w => (dget s.flight w).isSome), s.acquiring r.gid⟩
          let g1 := r.g.joinBatch r.sp r.word (some id) none
          let s1 := r.issueOp s g1 .porter (dcOf w.dc) [] .none [] [(w.sa.toNat, BitVec.ofNat 64 k)]
          .next (s1.modCore r.t.core fun x => { x with streams := dset x.streams k st })

/-- A stream of a team ends: its command leaves the batch (R300, R303). -/
def State.endStream (s : State) (core k : Nat) (st : Stream) (bad : Bool) : State :=
  let s1 := s.modCore core fun x => { x with streams := ddel x.streams k }
  (s1.modGroup st.group fun g => g.commandOver st.cmd bad).finishBatches st.group

/-- The next tile of a stream enters the porter's queue as a pcpy that credits its slot's barrier (R300); its accesses count as issued
at the pstream (R306). -/
def State.startTile (s : State) (core stream bk : Nat) (st : Stream) : State :=
  let base := (((st.g : Int) + st.tile * signed40 (lfield st.ring 319 280)) % (2 ^ 64 : Nat)).toNat
  let y := layoutOf st.layout
  let c : PorterCmd := ⟨s.nextId, .pcpy, st.team, base, ringSlot st.ring (st.tile % ringSlots st.ring), st.layout, st.clip, [], [],
    false, 1, 0, 0, some bk, true, some stream, [], [], []⟩
  let us := if base % y.eg .pcpy != 0 then [badUnit causeMisaligned base]
    else if !canonical base then [badUnit causeNotMapped base] else c.units
  let m : MemWork := ⟨.pread, .global, 0, 0, false, false, 0, 0, 1, us⟩
  let o : Op := ⟨st.group, st.team, core, .porter, none, st.hdr, st.idx, st.word, 0, st.mask, st.after, st.waits, .mem m,
    [], [], [], none, none, s.cyc1000 core⟩
  ({ s.bump with flight := s.flight ++ [(s.nextId, o)] } : State).modCore core fun x =>
    { x with porter := x.porter ++ [c], streams := dset x.streams stream { st with flying := some c.op } }

/-- pstop (R301, R308): no later tile starts; one in flight, or whose slot condition is met, completes, and the counter decrements when it
has credited. -/
def execPstop (a : SReg) (dc : DcField) (s : State) : Out :=
  onRun s fun r =>
    if r.full (dcOf dc) || r.porterFull s then r.stall s
    else
      let k := (r.sx a).toNat
      let short (s : State) (waits : List Nat) : State := r.issueOp s r.g .short (dcOf dc) waits .none [] []
      match dget (s.core r.t.core).streams k with
      | some st =>
        let last : Stream := { st with last := some st.tile }
        if st.team != r.tid then .next (short s [])
        else
          match st.flying, st.due r.t with
          | some op, _ => .next ((short s [op]).modCore r.t.core fun x => { x with streams := dset x.streams k last })
          | none, some bk => .next (short (s.startTile r.t.core k bk last) [s.nextId])
          | none, none => .next ((short s []).endStream r.t.core k st false)
      | none => .next (short s [])

/-- PSTREAM_TILE_START: the slot of a stream's next tile is empty and its consumers have arrived: the tile starts as a
pcpy (R300), once its barrier's entry is in the table (R290) and no access left behind in the group's instances is owed to it (log 50). -/
def execPstreamTileStart (core stream : Nat) (s : State) : Out :=
  match dget (s.core core).streams stream with
  | none => .refused .notEnabled
  | some st =>
    match dget s.teams st.team, dget s.groups st.group with
    | some t, some _ =>
      match st.due t with
      | some bk =>
        if t.st == .halting || t.st == .wounded || (dget s.flight st.cmd).isSome || 64 ≤ (s.core core).porter.length
            || (t.barrier bk).spilled || !(s.markedIn st.group 4).isEmpty then
          .refused .notEnabled
        else .next (s.startTile core stream bk st)
      | none => .refused .notEnabled
    | _, _ => .refused .notEnabled

/-! ### bseal, bwait, pcred (R302 to R304) -/

/-- bseal (R303). -/
def execBseal (d : SReg) (dc : DcField) (s : State) : Out :=
  onRun s fun r =>
    if r.full (dcOf dc) || r.porterFull s || 255 ≤ r.g.batches.length then r.stall s
    else
      let g := r.g.sealBatch
      .next ((r.issueOp s g .short (dcOf dc) [] .none [] [(d.toNat, BitVec.ofNat 64 g.batchL)]).finishBatches r.gid)

/-- bwait (R304). -/
def execBwait (a : SReg) (s : State) : Out :=
  onRun s fun r =>
    let n := (r.sx a).toNat % 2 ^ 16
    if r.porterFull s then r.stall s
    else if r.g.covered n then .next s else r.block s r.g (.bwait n)

/-- pcred (R302): the steps of R295 in their order. -/
def execPcred (bk : BitVec 4) (a : SReg) (s : State) : Out :=
  onRun s fun r =>
    if r.porterFull s then r.stall s
    else if 4 ≤ ((r.g.batchOpen.map Batch.credits).getD []).length || 2 ^ 40 < (r.sx a).toNat then r.trap s trapReservedField 0
    else if s.nbarOf r.t ≤ bk.toNat then r.trap s trapBarrierMisuse (misuse bk.toNat 2)
    else .next (r.put s (r.g.joinBatch r.sp r.word none (some (bk.toNat, (r.sx a).toNat))))

/-! ### The steps of a command -/

/-- The command of an operation, with its place in the queue. -/
def State.porterOf (s : State) (t : Team) (id : Nat) : Option (Nat × PorterCmd) :=
  let q := (s.core t.core).porter
  (q.zipIdx.find? fun x => x.1.op == id).map fun x => (x.2, x.1)

/-- A write of one row of a pscat comes after one of a lower row that names the same table row (R298). -/
def PorterCmd.rowBefore (c : PorterCmd) (v u : Access) : Bool :=
  c.kind == .pscat && v.half != 0 && v.half < u.half && u.overlaps v
    && c.tableRow (layoutOf c.layout) (c.rows.getD (v.half - 1) 0) == c.tableRow (layoutOf c.layout) (c.rows.getD (u.half - 1) 0)

/-- A porter access may be made now: its command is among the first 16 and its team goes on, or it ends a piece that is begun; it waits
for no page; a write
of a pquant follows all its reads, one of a pscat the lower rows' to its table row, and one from the window the group's earlier
accesses there (R239, R291, R298, R305). -/
def State.porterMay (s : State) (t : Team) (id : Nat) (o : Op) (m : MemWork) (u : Access) : Bool :=
  match s.porterOf t id with
  | none => false
  | some (n, c) =>
    n < 16 && (t.st != .halting || m.begun u) && t.st != .wounded && !(m.units.any fun v => match v.st with | .failed _ => true | _ => false)
      && !(((s.pageAt t.asid u.addr).map fun e => c.pages.contains (pageId e.1 e.2.1)).getD false)
      && (u.half == 0 || m.units.all fun v => (v.half != 0 || v.st == .done) && !(v.waits && c.rowBefore v u))
      && (u.half == 0 || o.after.all fun w =>
        match dget s.flight w with
        | some o' =>
          match o'.work with
          | .mem m' => m'.space == .global || m'.kind.isPorter || m'.isOver
          | _ => true
        | none => true)

/-- A held read waits for the remote budget or the host's lock (R265, R273). -/
def State.waitsBudget (s : State) (t : Team) (m : MemWork) (u : Access) : Bool :=
  u.st == .held && m.kindOf u == .pread &&
    match s.pageAt t.asid u.addr with
    | some (_, _, p) => p.back == 1 && (p.st == .remote || p.st == .faulting || p.st == .promoting)
    | none => false

/-- An access that would need a sieve record finds the sieve full (R258); a prefetch needs none (R204). -/
def State.sieveBlocks (s : State) (t : Team) (m : MemWork) (u : Access) : Bool :=
  m.kind != .pref && 32 ≤ (s.core t.core).sieve.length && s.accessCause t.asid t.mode (m.kindOf u) u.addr == causeNotPresent

/-- A porter's access sets out: a read binds the descriptors of the blocks it reads rows from, and fails where a row fits none (R294,
R340); a write carries its data. -/
def State.porterAccess (s : State) (op i : Nat) (t : Team) (m : MemWork) (u : Access) (c : PorterCmd) : State :=
  if u.half != 0 then (s.modUnit op i fun u => { u with data := s.porterData t c m.units u }).sliceAccess op i
  else
    match (dget s.ctxs t.asid).bind fun x => PorterCmd.bindRows x c (c.rotRows u) with
    | some c1 =>
      (s.modCore t.core fun x => { x with porter := x.porter.map fun p => if p.op == op then { p with descs := c1.descs } else p }).sliceAccess
        op i
    | none => s.modUnit op i fun u => { u with st := .failed causeNotMapped }

/-- An access of an operation is still to be made: it has not set out over a link, and no queue of a slice or a page keeps it. -/
def State.toMake (s : State) (op i : Nat) (u : Access) : Bool :=
  u.req.isNone && u.waits && !u.isParked && !(u.st == .held && s.queued op i)

/-- The accesses of an operation in the granule of a declared region that one of them touches, which are decided together; that one
alone anywhere else (R355). -/
def State.together (s : State) (t : Team) (m : MemWork) (i : Nat) (u : Access) : List Nat :=
  match s.regionAt t.asid u.addr with
  | none => [i]
  | some (k, rg) =>
    (List.range m.units.length).filter fun j =>
      ((m.units[j]?).map fun v =>
        ((s.regionAt t.asid v.addr).map Prod.fst) == some k && rg.granuleBase v.addr == rg.granuleBase u.addr).getD false

/-- Of some accesses of an operation, one and those others that may be performed now are decided at their home slice, in order. -/
def State.sliceThese (s : State) (op i : Nat) (t : Team) : List Nat → State
  | [] => s
  | j :: js =>
    match dget s.flight op with
    | none => s
    | some o =>
      match o.work with
      | .mem m =>
        match m.units[j]? with
        | some v =>
          if j == i || (s.toMake op j v && s.mayPerform op o m j v && !s.sieveBlocks t m v) then
            State.sliceThese (s.sliceAccess op j) op i t js
          else State.sliceThese s op i t js
        | none => State.sliceThese s op i t js
      | _ => s

/-- HOME_SLICE_ACCESS: one global access of an operation reaches its home slice (R251, R256, R355). It is no step where it would
change nothing: what holds the access has not gone. -/
def execHomeSliceAccess (op i : Nat) (s : State) : Out :=
  match dget s.flight op with
  | none => .refused .notEnabled
  | some o =>
    match o.work, dget s.teams o.team with
    | .mem m, some t =>
      match m.units[i]? with
      | none => .refused .notEnabled
      | some u =>
        let done (s1 : State) : Out := if u.st == .held && s1 == s then .refused .notEnabled else .next s1
        if m.space != .global || !s.toMake op i u || !s.mayPerform op o m i u || s.sieveBlocks t m u then .refused .notEnabled
        else if m.kind == .pref then .next (s.prefetch op i o m u t)
        else if m.kind.isPorter then
          match s.porterOf t op with
          | some (_, c) =>
            if !s.porterMay t op o m u || s.waitsBudget t m u then .refused .notEnabled
            else done (s.porterAccess op i t m u c)
          | none => .refused .notEnabled
        else done ((s.ordered o m).sliceThese op i t (s.together t m i u))
    | _, _ => .refused .notEnabled

/-- REMOTE_BUDGET_ACCRUED: the budget, and the host, let a porter's waiting read in place go on (R265). -/
def execRemoteBudgetAccrued (op : Nat) (s : State) : Out :=
  match dget s.flight op with
  | none => .refused .notEnabled
  | some o =>
    match o.work, dget s.teams o.team with
    | .mem m, some t =>
      let free := ((dget s.ctxs t.asid).map fun c => decide (64000 ≤ c.budgetNow s.pk.gts)).getD false
      let open' (u : Access) : Bool := ((s.pageAt t.asid u.addr).map fun e => !e.2.2.hostlock).getD false
      match (m.units.zipIdx).find? fun x => s.waitsBudget t m x.1 && x.1.req.isNone && open' x.1 && s.porterMay t op o m x.1 with
      | some (_, i) => if free then .next (s.sliceAccess op i) else .refused .notEnabled
      | none => .refused .notEnabled
    | _, _ => .refused .notEnabled

/-- PORTER_CHECKS_DONE: the checks of a porter instruction are over, its operands are read, and its counter decrements
(R295, R297 to R300, R307). -/
def execPorterChecksDone (op : Nat) (s : State) : Out :=
  match dget s.flight op with
  | none => .refused .notEnabled
  | some o =>
    match dget s.teams o.team with
    | none => .refused .notEnabled
    | some t =>
      if o.fam != .porter || t.st == .halting then .refused .notEnabled
      else if o.work == .none then .next (s.retireOp op o)
      else
        match s.porterOf t op with
        | none => .refused .notEnabled
        | some (_, c) =>
          if c.checked then .refused .notEnabled
          else
            let s1 := ({ s with flight := dset s.flight op { o with dc := none } } : State).modCore t.core fun x =>
              { x with porter := x.porter.map fun p => if p.op == op then { p with checked := true } else p }
            .next ((s1.modGroup o.group fun g => match o.dc with
              | some k => g.decCnt k
              | none => g).settle o.group)

/-- The batch sequence of a command: that of its sealed batch, or the next (R379). -/
def Group.seqOf (g : Group) (cmd : Nat) : Nat :=
  match g.batches.find? fun b => b.cmds.contains cmd with
  | some b => b.seq
  | none => (g.batchL + 1) % 2 ^ 16

/-- A command leaves the porter and its batch; a tile passes its stream on, which ends after its last (R300, R303). -/
def State.porterOver (s : State) (t : Team) (id : Nat) (o : Op) (c : PorterCmd) (bad : Bool) : State :=
  let s1 := s.modCore t.core fun x => { x with porter := x.porter.filter fun p => p.op != id }
  let s2 := s1.retireOp id { o with work := .none, vout := [], sout := [] }
  match c.stream with
  | none => (s2.modGroup o.group fun g => g.commandOver id bad).finishBatches o.group
  | some k =>
    match dget (s2.core t.core).streams k with
    | none => s2
    | some st =>
      let st1 := { st with tile := st.tile + 1, flying := none }
      if bad || !st1.more then s2.endStream t.core k st1 bad
      else s2.modCore t.core fun x => { x with streams := dset x.streams k st1 }

/-- The descriptor a pquant writes last (R299). -/
def State.quantDesc (s : State) (asid : Nat) (c : PorterCmd) : State :=
  s.modCtx asid fun x =>
    match x.block c.w with
    | some d => x.setDesc c.w { d with fmt := c.fmt, dm1 := c.rows.getD 1 1 - 1, pb := c.clip, gen := (d.gen + 1) % 2 ^ 32 }
    | none => x

/-- A porter access still to be made goes in two pieces, cut at a multiple of 4 bytes: no more than such a word is performed as one
(R229, R297). -/
def execTear (op i n : Nat) (s : State) : Out :=
  match dget s.flight op with
  | none => .refused .notEnabled
  | some o =>
    match o.work with
    | .mem m =>
      match m.units[i]? with
      | some u =>
        if !m.kind.isPorter || u.st != .pending || u.req.isSome || n == 0 || u.n ≤ n || (u.addr + n) % 4 != 0 then .refused .notEnabled
        else
          let us := m.units.set i { u with n := n } ++ [{ u with addr := u.addr + n, n := u.n - n }]
          .next { s with flight := dset s.flight op { o with work := .mem { m with units := us } } }
      | none => .refused .notEnabled
    | _ => .refused .notEnabled

/-- One aligned word of the window is written by a command, once what it is made of has been read (R229, R297). -/
def porterPiece (op word : Nat) (s : State) : Out :=
  match dget s.flight op with
  | none => .refused .notEnabled
  | some o =>
    match o.work, dget s.teams o.team with
    | .mem m, some t =>
      match s.porterOf t op with
      | none => .refused .notEnabled
      | some (n, c) =>
        let es := c.wordElems m.units word
        if 16 ≤ n || !c.checked || t.st == .halting || t.st == .wounded || c.moved.contains word || es.isEmpty || !(es.all id) then
          .refused .notEnabled
        else
          .next ((s.writeWindow t (· == word) (s.porterWindow t.asid c m.units)).modCore t.core fun x =>
            { x with porter := x.porter.map fun p => if p.op == op then { p with moved := p.moved ++ [word] } else p })
    | _, _ => .refused .notEnabled

/-- PORTER_COMMAND_COMPLETE: every access of a command is made: what is left of its window is written, its barrier credited, its batch
told (R297 to R303). -/
def execPorterCommandComplete (op : Nat) (s : State) : Out :=
  match dget s.flight op with
  | none => .refused .notEnabled
  | some o =>
    match o.work, dget s.teams o.team with
    | .mem m, some t =>
      match s.porterOf t op with
      | none => .refused .notEnabled
      | some (n, c) =>
        if 16 ≤ n || !c.checked || t.st == .halting || t.st == .wounded || !(m.units.all fun u => u.st == .done) then
          .refused .notEnabled
        else
          let s1 := s.writeWindow t (fun w => !c.moved.contains w) (s.porterWindow t.asid c m.units)
          let s2 := if c.kind == .pquant then s1.quantDesc t.asid c else s1
          let seq := ((dget s.groups o.group).map fun g => g.seqOf ((c.stream.bind fun k =>
            (dget (s.core t.core).streams k).map Stream.cmd).getD op)).getD 0
          let s3 := match c.bk with
            | some k => s2.creditAsync o.team o.group k c.bytes o.hdr o.idx o.word seq
            | none => s2
          .next (s3.porterOver t op o c false)
    | _, _ => .refused .notEnabled

/-- The fatal cause that stops a command, with the address of the access (R305). -/
def MemWork.porterCause (m : MemWork) : Option (Nat × Nat × AccType) :=
  m.units.findSome? fun u =>
    match u.st with
    | .failed k => some (k, u.addr, (m.kindOf u).acc)
    | _ => none

/-- PORTER_STOP: a command stops on a fatal cause, which its group records at its next clause boundary, or the team takes
on its behalf (R305); a command of a team in HALTING stops at the end of a piece without credit, and its counter decrements (R308,
R380). -/
def execPorterStop (op : Nat) (s : State) : Out :=
  match dget s.flight op with
  | none => .refused .notEnabled
  | some o =>
    match dget s.teams o.team, dget s.groups o.group with
    | some t, some g =>
      if o.fam != .porter then .refused .notEnabled
      else if t.st == .halting then
        let (rest, s0) := match o.work, s.porterOf t op with
          | .mem m, some (_, c) =>
            (m.units.any m.begun, s.writeWindow t (fun w => begunWord c.moved w && (c.wordElems m.units w).all id)
              (s.porterWindow t.asid c m.units))
          | _, _ => (false, s)
        if rest then .refused .notEnabled else
        let s1 := s0.modCore t.core fun x =>
          { x with porter := x.porter.filter (fun p => p.op != op),
                   streams := x.streams.filter fun e => e.2.cmd != op && e.2.flying != some op }
        .next ((s1.modGroup o.group fun g => g.commandOver op true).retireOp op { o with work := .none, vout := [], sout := [] })
      else
        match o.work, s.porterOf t op with
        | .mem m, some (_, c) =>
          match m.porterCause with
          | none => .refused .notEnabled
          | some (cause, va, acc) =>
            let rcd : FaultRecord := ⟨t.core, t.lid, false, cause, 2 ^ acc.bit, s.classAt t.asid va, t.asid, o.mask.toNat,
              s.pk.gts, va⟩
            let s1 := (s.modTeam o.team fun t => { t with faults := t.faults ++ [rcd] }).logFault t.asid rcd
            let lc : LaneCause := ⟨0, cause, va, o.hdr, o.idx, o.word, s.nextId⟩
            let s2 := s1.bump.porterOver t op o c true
            if g.st == .ended then .next (s2.stopTrap o.group g o.mask lc)
            else .next (s2.modGroup o.group fun g => { g with pendStops := g.pendStops ++ [(o.mask, lc)] })
        | _, _ => .refused .notEnabled
    | _, _ => .refused .notEnabled

end Sys2Proof.Machine
end

