-- ==== Sys2Proof/Machine/Loom.lean ====
section
/-!
DEFINITION. Class 4, the loom: tile handles, banks, the queue and its arbiter, and the arithmetic of a pass
(15_looms.md R309 to R333; 04_numbers.md R77 to R82).
-/
namespace Sys2Proof.Machine

/-! ### Tile handles (R309, R310) -/

/-- A tile handle, read (R309). -/
structure Tile where
  es : Nat
  cols : Nat
  rows : Nat
  pitch : Nat
  off : Nat

/-- Read a descriptor (R309). -/
def tileOf (d : DWord) : Tile :=
  { es := 2 ^ (d.extractLsb' 60 2).toNat, cols := (d.extractLsb' 51 9).toNat + 1, rows := (d.extractLsb' 42 9).toNat + 1,
    pitch := (d.extractLsb' 21 21).toNat, off := (d.extractLsb' 0 21).toNat }

/-- A descriptor that thdef takes (R309). -/
def tileOk (d : DWord) : Bool :=
  let t := tileOf d
  d.extractLsb' 62 2 == 0 && t.es ≤ 4 && t.off % t.es == 0 && t.pitch % t.es == 0
    && (t.rows == 1 || t.cols * t.es ≤ t.pitch)

/-- End of a tile's span (R309). -/
def Tile.spanEnd (t : Tile) : Nat := t.off + (t.rows - 1) * t.pitch + t.cols * t.es

/-- Window offset of element (r, c) of a tile (R309). -/
def Tile.at (h : Tile) (r c : Nat) : Nat := h.off + r * h.pitch + c * h.es

/-- thdef (R310, R325). -/
def execThdef (h : BitVec 4) (a : SReg) (s : State) : Out :=
  onRun s fun r =>
    let d := r.sx a
    if tileOk d then .next (s.modTeam r.tid fun t => { t with handles := dset t.handles h.toNat d })
    else r.trap s trapReservedField 0

/-! ### Banks (R311 to R313, R326, R327) -/

/-- A bank of a loom. -/
def Loom.bank (l : Loom) (k : Nat) : Bank := dgetD l.banks k Bank.reset

/-- Replace a bank. -/
def Loom.setBank (l : Loom) (k : Nat) (b : Bank) : Loom := { l with banks := dset l.banks k b }

/-- The lowest bank for which a test holds. -/
def Loom.lowest (l : Loom) (p : Bank → Bool) : Option Nat := (List.range 8).find? fun k => p (l.bank k)

/-- The physical bank of a BOUND name (R311). -/
def Team.bankOf (t : Team) (name : Nat) : Option Nat :=
  match t.banks.getD name .unbound with
  | .bound k => some k
  | _ => none

/-- A bank that a team has reserved. -/
def Bank.reservedFor (b : Bank) (tid : Nat) : Bool := b.st == .reserved && b.team == tid

/-- Replace a loom. -/
def State.setLoom (s : State) (i : Nat) (l : Loom) : State := { s with looms := dset s.looms i l }

/-- A name is bound to a bank (R326). -/
def State.bindBank (s : State) (tid q k name : Nat) (kept : Bool) : State :=
  let l := s.loom q
  (s.setLoom q (l.setBank k { l.bank k with st := .owned, team := tid, kept := kept })).modTeam tid fun t =>
    { t with banks := t.banks.set name (.bound k) }

/-- acqb (R326). -/
def execAcqb (acc : BitVec 3) (d : SReg) (dc : DcField) (s : State) : Out :=
  onRun s fun r =>
    let q := islandOf r.t.core
    let l := s.loom q
    let out (s : State) (st : Nat) : Out := r.later s .short dc [] [(d.toNat, BitVec.ofNat 64 st)]
    if r.full (dcOf dc) then r.stall s
    else if (r.t.bankOf acc.toNat).isSome then out s 1
    else
      match l.lowest fun b => b.reservedFor r.tid with
      | some k => out (s.bindBank r.tid q k acc.toNat true) 0
      | none =>
        if (l.lowest fun b => b.st == .zeroing && b.kept && b.team == r.tid).isSome then r.stall s
        else
          match l.lowest fun b => b.st == .free with
          | some k => out (s.bindBank r.tid q k acc.toNat false) 0
          | none => out s 2

/-- relb (R327). -/
def execRelb (acc : BitVec 3) (s : State) : Out :=
  onRun s fun r =>
    match r.t.bankOf acc.toNat with
    | none => .next s
    | some k =>
      let q := islandOf r.t.core
      let l := s.loom q
      .next ((s.setLoom q (l.setBank k ((l.bank k).letGo true))).modTeam r.tid fun t =>
        { t with banks := t.banks.set acc.toNat .unbound })

/-- BANK_ZEROING_DONE: a bank whose last operation is over is zeroed and goes back to its team's reservation, or is FREE
(R312). -/
def execBankZeroingDone (loom bank : Nat) (s : State) : Out :=
  let l := s.loom loom
  let b := l.bank bank
  if b.st != .zeroing || l.queue.any (fun e => e.bank == bank) then .refused .notEnabled
  else
    let placed := ((dget s.teams b.team).map fun t => t.st != .retired).getD false
    .next (s.setLoom loom (l.setBank bank (if b.kept && placed then ⟨.reserved, b.team, true, [], false⟩ else Bank.reset)))

/-! ### The queue (R322) -/

/-- Entries of a team that stand in its queue. -/
def Loom.queued (l : Loom) (tid : Nat) : Nat := (l.queue.filter fun e => e.team == tid && e.stage == 0).length

/-- An MZERO or MDRN entry. -/
def LoomEntry.isPass (e : LoomEntry) : Bool :=
  match e.work with
  | .mma .. => true
  | _ => false

/-- MZERO and MDRN entries leave at the head of their team's queue, and run once every earlier operation on their bank is
over (R322): one walk in issue order, over the teams and the banks that earlier entries hold back. -/
def advanceGo (heads : List Nat) (banks : List (Nat × Nat)) : List LoomEntry → List LoomEntry
  | [] => []
  | e :: es =>
    let stage :=
      if e.isPass then e.stage
      else if e.stage == 0 && heads.contains e.team then 0
      else if banks.contains (e.team, e.bank) then 1
      else 2
    let heads1 := if stage == 0 then e.team :: heads else heads
    { e with stage := stage } :: advanceGo heads1 ((e.team, e.bank) :: banks) es

/-- Let entries leave and run. -/
def Loom.advance (l : Loom) : Loom := { l with queue := advanceGo [] [] l.queue }

/-- The issuing group holds its slot's priority token (R155). -/
def Run.hasToken (r : Run) (s : State) : Bool :=
  let c := s.core r.t.core
  (if r.g.grp % 2 = 0 then c.tok0 else c.tok1) == some r.gid

/-- Enter an operation into the loom's queue, or wait for room or the counter (R322). -/
def Run.loomIssue (r : Run) (s : State) (acc : BitVec 3) (bank : Nat) (dc : DcField) (w : LoomWork) : Out :=
  let q := islandOf r.t.core
  let l := s.loom q
  if r.full (dcOf dc) || 8 ≤ l.queued r.tid || !(s.markedIn r.gid 4).isEmpty then r.stall s
  else
    let e : LoomEntry := ⟨s.nextId, r.tid, r.g.grp, acc.toNat, bank, dcOf dc, r.hasToken s, w, 0, [], [], 0, []⟩
    .next ((r.issueOp s r.g .loom (dcOf dc) [] .loom [] []).setLoom q { l with queue := l.queue ++ [e] }.advance)

/-! ### Checks (R317, R330) -/

/-- TILE_BOUNDS detail: handle and sub-code (R379). -/
def tileBad (h : BitVec 4) (sub : Nat) : Nat := 16 * h.toNat + sub

/-- The format word's reserved bits and codes (R316). -/
def formatOk (f : Word) : Bool :=
  let a := (f.extractLsb' 0 4).toNat
  let b := (f.extractLsb' 4 4).toNat
  f.extractLsb' 12 20 == 0 && !f.getLsbD 8 && 1 ≤ a && a ≤ 5 && 1 ≤ b && b ≤ 5

/-- Check 4 of R317: the handle and sub-code that fail, A before B. -/
def mmaTiles (t : Team) (ha hb : BitVec 4) (f : Word) : Option Nat :=
  match dget t.handles ha.toNat, dget t.handles hb.toNat with
  | none, _ => some (tileBad ha 1)
  | some da, db =>
    let a := tileOf da
    let big (n m : Nat) : Bool := m < n || n % 32 != 0
    let ka := if f.getLsbD 9 then a.rows else a.cols
    let m := if f.getLsbD 9 then a.cols else a.rows
    if big m 256 || big ka 512 then some (tileBad ha 2)
    else if a.es != typeBytes (f.extractLsb' 0 4).toNat then some (tileBad ha 3)
    else if t.wsize < a.spanEnd then some (tileBad ha 4)
    else
      match db with
      | none => some (tileBad hb 1)
      | some db =>
        let b := tileOf db
        let kb := if f.getLsbD 10 then b.cols else b.rows
        let n := if f.getLsbD 10 then b.rows else b.cols
        if big n 256 || big kb 512 || ka != kb then some (tileBad hb 2)
        else if b.es != typeBytes (f.extractLsb' 4 4).toNat then some (tileBad hb 3)
        else if t.wsize < b.spanEnd then some (tileBad hb 4)
        else none

/-- mma (R317, R328). -/
def execMma (acc : BitVec 3) (ha hb : BitVec 4) (vf : Reg7) (dc : DcField) (s : State) : Out :=
  onRun s fun r =>
    let lanes := lanesOf r.act
    let f := r.g.vreg vf.toNat (lanes.headD 0)
    if lanes.any fun l => r.g.vreg vf.toNat l != f then r.trap s trapFormatDivergence 0
    else if !formatOk f then r.trap s trapReservedField 0
    else
      match r.t.bankOf acc.toNat with
      | none => r.trap s trapBankNotOwned 0
      | some k =>
        match mmaTiles r.t ha hb f with
        | some d => r.trap s trapTileBounds d
        | none => r.loomIssue s acc k dc (.mma ((dget r.t.handles ha.toNat).getD 0) ((dget r.t.handles hb.toNat).getD 0) f)

/-- mzero (R329). -/
def execMzero (acc : BitVec 3) (dc : DcField) (s : State) : Out :=
  onRun s fun r =>
    match r.t.bankOf acc.toNat with
    | none => r.trap s trapBankNotOwned 0
    | some k => r.loomIssue s acc k dc .zero

/-- The checks of mdrn on its handle (R330): the sub-code that fails. -/
def mdrnTile (t : Team) (f : MdrnF) : Option Nat :=
  match dget t.handles f.hd.toNat with
  | none => some 1
  | some d =>
    let h := tileOf d
    if 256 < h.rows || 256 < h.cols || 256 < f.row0.toNat + h.rows || 256 < f.col0.toNat + h.cols then some 2
    else if h.es != typeBytes f.dfmt.toNat then some 3
    else if t.wsize < h.spanEnd then some 4
    else none

/-- mdrn (R330). -/
def execMdrn (f : MdrnF) (s : State) : Out :=
  onRun s fun r =>
    match r.t.bankOf f.acc.toNat with
    | none => r.trap s trapBankNotOwned 0
    | some k =>
      match mdrnTile r.t f with
      | some sub => r.trap s trapTileBounds (tileBad f.hd sub)
      | none =>
        if f.cr.toNat == 1 && s.nbarOf r.t ≤ f.bk.toNat then r.trap s trapBarrierMisuse (misuse f.bk.toNat 2)
        else
          r.loomIssue s f.acc k f.dc (.drain ((dget r.t.handles f.hd.toNat).getD 0)
            (if f.scl.toNat == 1 then some ((r.sx f.ss).extractLsb' 0 32) else none) f.dfmt.toNat (f.sat.toNat == 1)
            f.row0.toNat f.col0.toNat (if f.cr.toNat == 1 then some f.bk.toNat else none))

/-- mstat (R331). -/
def execMstat (d : SReg) (dc : DcField) (s : State) : Out :=
  onRun s fun r =>
    let l := s.loom (islandOf r.t.core)
    let bits (p : Nat → Bool) : Nat := (List.range 8).foldl (fun n k =>
      match r.t.bankOf k with
      | some b => if p b then n + 2 ^ k else n
      | none => n) 0
    let unused := ((List.range 8).filter fun k => (l.bank k).reservedFor r.tid).length
    let w := bits (fun b => (l.bank b).nan) * 2 ^ 48 + bits (fun _ => true) * 2 ^ 40 + unused * 2 ^ 32
      + l.queued r.tid * 2 ^ 16 + r.t.passes % 2 ^ 16
    r.later s .short dc [] [(d.toNat, BitVec.ofNat 64 w)]

/-! ### The arithmetic of a pass (R77 to R81) -/

/-- Element exponent of a finite non-zero value (R77). -/
def elemExp : FVal → Option Int
  | .fin _ m e => if m = 0 then none else some (e + Nat.log2 m)
  | _ => none

/-- A row or column at its fetch (R77, R81): loom integers, block exponent, and the flag. -/
structure LoomRow where
  q : List Int
  b : Int
  flag : Bool

/-- Convert a row of A or a column of B from its stored bits (R77, R81). -/
def loomRow (fmt : Nat) (bits : List Nat) : LoomRow :=
  match fmtOf fmt with
  | none => ⟨bits.map (intOf fmt), 0, false⟩
  | some f =>
    let vs := bits.map f.value
    let b := ((vs.filterMap elemExp).foldl (fun (m : Option Int) e => some (max (m.getD e) e)) none).map (· - 7) |>.getD 0
    let q := vs.map fun v =>
      match v with
      | .fin n m e =>
        let x : Int := min 255 (roundInt .rne n m (e - b))
        if n then -x else x
      | _ => 0
    ⟨q, b, vs.any fun v => match v with | .fin .. => false | _ => true⟩

/-- The residue accumulator of a channel after the products of a cell (R78). -/
def residue (m : Nat) (a b : List Int) : Nat :=
  (a.zip b).foldl (fun (acc : Nat) (x : Int × Int) => (acc + (x.1 % (m : Int)).toNat * (x.2 % (m : Int)).toNat) % m) 0

/-- The integer that three residues reconstruct (R80). -/
def reconstruct (r511 r512 r513 : Nat) : Int :=
  let y := (r511 * 67239936 + r512 * 133955073 + r513 * 67239424) % 134217216
  if y < 67108608 then y else (y : Int) - 134217216

/-- The sum of a cell: reconstructed from its three residue channels (R78 to R80). -/
def dotInt (a b : List Int) : Int := reconstruct (residue 511 a b) (residue 512 a b) (residue 513 a b)

/-- The value of an output element (R80, R81). -/
def passValue (a b : LoomRow) : Word :=
  if a.flag || b.flag then 0x7FC00000
  else
    let x := dotInt a.q b.q
    if x = 0 then 0 else BitVec.ofNat 32 (f32.round .rne false (.fin (decide (x < 0)) x.natAbs (a.b + b.b)))

/-- The bank after a pass: overwritten or added to (R80, R319). -/
def Bank.pass (k : Bank) (acc : Bool) (as bs : List LoomRow) : Bank :=
  let elems := (as.zipIdx).foldl (fun m (a, i) => (bs.zipIdx).foldl (fun m (b, j) =>
    let v := passValue a b
    let n := 256 * i + j
    sset 0 m n (if !acc || a.flag || b.flag then v else fadd32 .rne false (sget 0 m n) v)) m) k.elems
  { k with elems := elems, nan := k.nan || as.any LoomRow.flag || bs.any LoomRow.flag }

/-! ### The arbiter (R323) -/

/-- Accesses of the issuing group to its window before an operation are performed (R321). -/
def State.windowSettled (s : State) (id : Nat) : Bool :=
  match dget s.flight id with
  | none => true
  | some o => o.after.all fun w =>
    match dget s.flight w with
    | some o' =>
      match o'.work with
      | .mem m => m.space == .global || m.kind.isPorter || m.isOver
      | _ => true
    | none => true

/-- The ready entry of a team: an MMA at the head of its queue with no MZERO or MDRN before it on its bank (R322). -/
def State.readyPass (s : State) (l : Loom) (tid : Nat) : Option LoomEntry :=
  match l.queue.find? fun e => e.team == tid && e.stage == 0 with
  | none => none
  | some e =>
    let before := l.queue.takeWhile fun x => x.op != e.op
    if e.isPass && !(before.any fun x => x.team == tid && x.bank == e.bank && !x.isPass) && s.windowSettled e.op
        && ((dget s.teams tid).map fun t => t.st != .halting && t.st != .wounded).getD false then some e
    else none

/-- Place of a team in the round-robin order: core within the quad, lowest group slot (R323). -/
def State.loomPlace (s : State) (tid : Nat) : Nat :=
  let core := ((dget s.teams tid).map Team.core).getD 0
  core % 4 * 64 + ((s.groupsOf tid).map fun e => e.2.slot).foldl min 63

/-- First in a round-robin order after the place chosen last. -/
def State.roundRobin (s : State) (l : Loom) (tids : List Nat) : Option Nat :=
  let best (ts : List Nat) : Option Nat := ts.foldl (fun b t =>
    match b with
    | none => some t
    | some u => if s.loomPlace t < s.loomPlace u then some t else some u) none
  match best (tids.filter fun t => l.lastPlace ≤ s.loomPlace t) with
  | some t => some t
  | none => best tids

/-- The team whose pass starts (R323). -/
def State.arbitrate (s : State) (l : Loom) (ready : List (Nat × LoomEntry)) : Option Nat :=
  let due := ready.filter fun e => 3 ≤ dgetD l.skips e.1 0
  let oldest := due.foldl (fun (b : Option (Nat × Nat)) e =>
    let age := ((dget s.teams e.1).map fun t => t.age.toNat).getD 0
    match b with
    | none => some (e.1, age)
    | some x => if age < x.2 then some (e.1, age) else some x) none
  match oldest with
  | some x => some x.1
  | none =>
    match s.roundRobin l ((ready.filter fun e => e.2.token).map Prod.fst) with
    | some t => some t
    | none => s.roundRobin l (ready.map Prod.fst)

/-- The array is free for another pass (R320). -/
def State.arrayFree (s : State) (i : Nat) (l : Loom) : Bool :=
  l.busyTo1000 ≤ (s.island i).cyc1000 || !(l.queue.any fun e => e.isPass && e.stage == 2)

/-- The shape of a pass: M, K and N (R318). -/
def passShape (ha hb : DWord) (f : Word) : Nat × Nat × Nat :=
  let a := tileOf ha
  let b := tileOf hb
  (if f.getLsbD 9 then a.cols else a.rows, if f.getLsbD 9 then a.rows else a.cols, if f.getLsbD 10 then b.rows else b.cols)

/-- Cycles for which a pass occupies the array, and those from its start to its end (R320). -/
def passCycles (ha hb : DWord) (f : Word) : Nat × Nat :=
  let (m, k, n) := passShape ha hb f
  let per (n w : Nat) : Nat := (n * w + 255) / 256
  let occ := k * max (per m (typeBytes (f.extractLsb' 0 4).toNat)) (per n (typeBytes (f.extractLsb' 4 4).toNat))
  (occ, occ + m + n + 36)

/-- Window offsets of the elements of A, by rows, and of B, by columns (R318). -/
def passPlaces (ha hb : DWord) (f : Word) : List (List Nat) × List (List Nat) :=
  let a := tileOf ha
  let b := tileOf hb
  let (m, k, n) := passShape ha hb f
  ((List.range m).map fun i => (List.range k).map fun x => if f.getLsbD 9 then a.at x i else a.at i x,
    (List.range n).map fun j => (List.range k).map fun x => if f.getLsbD 10 then b.at j x else b.at x j)

/-- The operands of a pass as its elements: A by rows, B by columns (R318). A word read before the start stands as it was read
(R321). -/
def State.passOperands (s : State) (t : Team) (e : LoomEntry) (ha hb : DWord) (f : Word) : List (List Nat) × List (List Nat) :=
  let elem (es o : Nat) : Nat :=
    match e.words.find? fun w => w.1 == o / 4 with
    | some w => leNat ((w.2.drop (o % 4)).take es)
    | none => s.winNat t o es
  let (pa, pb) := passPlaces ha hb f
  (pa.map fun r => r.map (elem (tileOf ha).es), pb.map fun r => r.map (elem (tileOf hb).es))

/-- A pass under way reads one word of its operands again (R321). -/
def State.rereadWord (s : State) (t : Team) (e : LoomEntry) (ha hb : DWord) (f : Word) (word : Nat) : LoomEntry :=
  let redo (es : Nat) (old places : List (List Nat)) : List (List Nat) :=
    (old.zip places).map fun r => (r.1.zip r.2).map fun x => if x.2 / 4 = word then s.winNat t x.2 es else x.1
  let (pa, pb) := passPlaces ha hb f
  { e with a := redo (tileOf ha).es e.a pa, b := redo (tileOf hb).es e.b pb }

/-- LOOM_PASS_START: the arbiter starts a pass, which reads its operands (R320 to R323). -/
def execLoomPassStart (loom : Nat) (s : State) : Out :=
  let l := s.loom loom
  let tids := (l.queue.map LoomEntry.team).eraseDups
  let ready := tids.filterMap fun tid => (s.readyPass l tid).map fun e => (tid, e)
  if !s.arrayFree loom l || s.issueStopped (4 * loom) then .refused .notEnabled
  else
    match s.arbitrate l ready with
    | none => .refused .notEnabled
    | some tid =>
      match ready.find? fun e => e.1 == tid, dget s.teams tid with
      | some (_, e), some t =>
        match e.work with
        | .mma ha hb f =>
          let (as, bs) := s.passOperands t e ha hb f
          let (occ, all) := passCycles ha hb f
          let now := (s.island loom).cyc1000
          let skips := ready.foldl (fun m x => if x.1 == tid then dset m tid 0 else dset m x.1 (dgetD m x.1 0 + 1)) l.skips
          let l1 := { l with
            queue := l.queue.map fun (x : LoomEntry) =>
              if x.op == e.op then { x with stage := 2, a := as, b := bs, endAt := now + 1000 * all } else x
            busyTo1000 := now + 1000 * occ
            skips := skips
            lastPlace := s.loomPlace tid + 1 }
          .next (s.setLoom loom l1.advance)
        | _ => .refused .notEnabled
      | _, _ => .refused .notEnabled

/-- An entry is over: it leaves the loom, and its operation ends (R322). -/
def State.loomOver (s : State) (q : Nat) (e : LoomEntry) : State :=
  let l := s.loom q
  let s1 := s.setLoom q { l with queue := l.queue.filter fun x => x.op != e.op }.advance
  match dget s1.flight e.op with
  | some o => s1.retireOp e.op { o with sout := [] }
  | none => s1

/-- The team of an entry is in HALTING: its loom work stops and writes nothing (R333, R380). -/
def State.loomStopped (s : State) (e : LoomEntry) : Bool :=
  ((dget s.teams e.team).map fun t => t.st == .halting).getD true

/-- The pass that ends next: a pass of a halting team stops at once; of the others the one whose cycle comes first (R320), none on
a bank whose earlier pass still runs (R82). -/
def State.endingPass (s : State) (l : Loom) : Option LoomEntry :=
  match l.queue.find? fun e => e.isPass && s.loomStopped e with
  | some e => some e
  | none =>
    let firsts := l.queue.filter fun e => e.isPass && e.stage == 2
      && !((l.queue.takeWhile fun x => x.op != e.op).any fun x => x.isPass && x.bank == e.bank)
    firsts.foldl (fun b e =>
      match b with
      | none => some e
      | some x => if e.endAt < x.endAt then some e else some x) none

/-- LOOM_PASS_END: a pass ends, its results are in the bank and its counter decrements (R318, R320). -/
def execLoomPassEnd (loom : Nat) (s : State) : Out :=
  let l := s.loom loom
  match s.endingPass l with
  | none => .refused .notEnabled
  | some e =>
    if s.loomStopped e then .next (s.loomOver loom e)
    else
      match e.work with
      | .mma _ _ f =>
        let as := e.a.map (loomRow (f.extractLsb' 0 4).toNat)
        let bs := e.b.map (loomRow (f.extractLsb' 4 4).toNat)
        let s1 := s.setLoom loom (l.setBank e.bank ((l.bank e.bank).pass (f.getLsbD 11) as bs))
        let s2 := s1.modTeam e.team fun t => { t with passes := (t.passes + 1) % 2 ^ 16 }
        .next (s2.loomOver loom e)
      | _ => .refused .notEnabled

/-- The entry of an operation, with its loom. -/
def State.loomEntry (s : State) (op : Nat) : Option (Nat × LoomEntry) :=
  match dget s.flight op with
  | none => none
  | some o =>
    match dget s.teams o.team with
    | none => none
    | some t => ((s.loom (islandOf t.core)).queue.find? fun e => e.op == op).map fun e => (islandOf t.core, e)

/-- MZERO_DONE (R329). -/
def execMzeroDone (op : Nat) (s : State) : Out :=
  match s.loomEntry op with
  | none => .refused .notEnabled
  | some (q, e) =>
    match e.work with
    | .zero =>
      if s.loomStopped e then .next (s.loomOver q e)
      else if e.stage != 2 then .refused .notEnabled
      else
        let l := s.loom q
        .next ((s.setLoom q (l.setBank e.bank { l.bank e.bank with elems := [], nan := false })).loomOver q e)
    | _ => .refused .notEnabled

/-- The window writes of an mdrn (R330). -/
def drainBytes (k : Bank) (h : Tile) (scale : Option Word) (fmt : Nat) (sat : Bool) (row0 col0 : Nat) :
    List (Nat × List Byte) :=
  (List.range h.rows).flatMap fun r => (List.range h.cols).map fun c =>
    let v := sget 0 k.elems (256 * (row0 + r) + col0 + c)
    let v1 := match scale with
      | some x => fmul32 .rne false v x
      | none => v
    (h.at r c, leBytes h.es (convert fmt 0 .rne sat false v1.toNat))

/-- One aligned word of the window is written by a drain that runs, or read by a pass at a time of its own (R229, R321). -/
def loomPiece (op word : Nat) (s : State) : Out :=
  match s.loomEntry op with
  | none => .refused .notEnabled
  | some (q, e) =>
    let put (s : State) (e' : LoomEntry) : State :=
      s.setLoom q { s.loom q with queue := (s.loom q).queue.map fun x => if x.op == op then e' else x }
    match e.work, dget s.teams e.team with
    | .mma ha hb f, some t =>
      if s.loomStopped e then .refused .notEnabled
      else if e.stage == 2 then .next (put s (s.rereadWord t e ha hb f word))
      else if !s.windowSettled op then .refused .notEnabled
      else .next (put s { e with words := (word, s.windowBytes t (4 * word) 4) :: e.words.filter fun w => w.1 != word })
    | .drain hd scale fmt sat row0 col0 _, some t =>
      let xs := drainBytes ((s.loom q).bank e.bank) (tileOf hd) scale fmt sat row0 col0
      if s.loomStopped e || e.stage != 2 || (e.words.any fun w => w.1 == word)
          || !(xs.any fun x => x.1 < 4 * word + 4 && 4 * word < x.1 + x.2.length) then .refused .notEnabled
      else .next (put (s.writeWindow t (· == word) xs) { e with words := e.words ++ [(word, [])] })
    | _, _ => .refused .notEnabled

/-- MDRN_DONE: the rectangle stands in the window, and the barrier is credited (R330, R279); the drain of a team in HALTING stops at the
end of a piece (R333). -/
def execMdrnDone (op : Nat) (s : State) : Out :=
  match s.loomEntry op with
  | none => .refused .notEnabled
  | some (q, e) =>
    match e.work, dget s.teams e.team with
    | .drain hd scale fmt sat row0 col0 bk, some t =>
      let h := tileOf hd
      let xs := drainBytes ((s.loom q).bank e.bank) h scale fmt sat row0 col0
      if s.loomStopped e then .next ((s.writeWindow t (begunWord (e.words.map Prod.fst)) xs).loomOver q e)
      else if e.stage != 2 then .refused .notEnabled
      else
        let s1 := s.writeWindow t (fun w => !(e.words.any fun x => x.1 == w)) xs
        let s2 := match bk, dget s.flight op with
          | some k, some o => s1.creditAsync e.team o.group k (h.rows * h.cols * h.es) o.hdr o.idx o.word 0
          | _, _ => s1
        .next (s2.loomOver q e)
    | _, _ => .refused .notEnabled

end Sys2Proof.Machine
end

