-- ==== Sys2Proof/Machine/Token.lean ====
section
/-!
DEFINITION. The grant of the irrevocable token (17_hoops_versions.md R362, R364, R365).
-/
namespace Sys2Proof.Machine

/-- Writes of a team that are held for want of room in its version: operation and access (R362). -/
def State.heldWrites (s : State) (tid : Nat) : List (Nat × Nat) :=
  s.flight.flatMap fun e =>
    match e.2.work with
    | .mem m =>
      if e.2.team == tid && m.space == .global then
        ((m.units.zipIdx).filter fun x =>
          x.1.st == .held && (m.kindOf x.1).acc.writes && x.1.req.isNone && !s.queued e.1 x.2).map fun x => (e.1, x.2)
      else []
    | _ => []

/-- Chandler operations of a team that wait for the token (R362), in issue order. -/
def State.heldChandler (s : State) (tid : Nat) : List (Nat × Op × Nat × List DWord) :=
  s.flight.filterMap fun e =>
    match e.2.work with
    | .chandler k args true => if e.2.team == tid then some (e.1, e.2, k, args) else none
    | _ => none

/-- Operations of a team that do not end before its grant: they wait for the token, or stand parked at their core for a page (log 32). -/
def State.stuck (s : State) (tid : Nat) : List Nat :=
  (s.heldWrites tid).map Prod.fst ++ (s.heldChandler tid).map Prod.fst ++
    (s.opsOf tid).filterMap fun e =>
      match e.2.work with
      | .mem m => if m.units.any Access.isParked then some e.1 else none
      | _ => none

/-- A write of a team is on its way into its version: it enters before the token's commit point, unless it comes after what only the
grant ends (R364, log 32). -/
def State.enters (s : State) (t : Team) (stuck : List Nat) (id : Nat) (o : Op) (m : MemWork) (i : Nat) (u : Access) : Bool :=
  (m.kindOf u).acc.writes &&
    ((u.st == .held && s.queued id i)
      || (u.st == .pending &&
        if m.kind.isPorter then s.porterMay t id o m u
        else s.mayPerform id o m i u || !(stuck.any fun w => w == id || o.after.contains w || o.waits.contains w)))

/-- Write accesses of a team are on their way into its version (R364). -/
def State.enteringVersion (s : State) (tid : Nat) (t : Team) : Bool :=
  let stuck := s.stuck tid
  s.flight.any fun e =>
    match e.2.work with
    | .mem m => e.2.team == tid && m.space == .global && (m.units.zipIdx).any fun x => s.enters t stuck e.1 e.2 m x.2 x.1
    | _ => false

/-- TOKEN_GRANT: the team that has received the token takes the commit point of its version, what it held for want of room is
performed, and from then on its effects come at once (R364). -/
def execTokenGrant (s : State) : Out :=
  match s.pk.tokenHolder with
  | none => .refused .notEnabled
  | some tid =>
    match dget s.teams tid with
    | none => .refused .notEnabled
    | some t =>
      let dead := t.st == .halting || t.st == .retired || t.st == .wounded
      if t.ver.irrevocable || dead || s.enteringVersion tid t || !s.commitClear tid then .refused .notEnabled
      else
        let s1 := (s.commit tid).modTeam tid fun t =>
          { t with st := if t.st == .committing then .running else t.st,
                   ver := { t.ver with irrevocable := true, tokenWait := false } }
        let s2 := s1.sliceAll (s1.heldWrites tid)
        let s3 := (s2.heldChandler tid).foldl (fun s x =>
          match dget s.teams tid with
          | some t => if x.2.1.waits.all s.performed then s.chandlerDone x.1 x.2.1 t x.2.2.1 x.2.2.2 else s
          | none => s) s2
        .next (if t.st == .running then s3.resumeLaunch tid else s3)

end Sys2Proof.Machine
end

