-- ==== Sys2Proof/Machine/Dispatch.lean ====
section
/-!
DEFINITION. exec: the meaning of every instruction, one arm per row of spec/opcode_table.json.
-/
namespace Sys2Proof.Machine
open Sys2Proof

/-- The meaning of an instruction. -/
def exec (i : Instr) (s : State) : Host.Outcome State Fault Refusal :=
  match i with
  -- Class 0, vector integer (R165 to R170)
  | .vadd w f => Sys2Proof.Machine.execVadd w f s
  | .vsub w f => Sys2Proof.Machine.execVsub w f s
  | .vmullo w f => Sys2Proof.Machine.execVmullo w f s
  | .vmulhi u f => Sys2Proof.Machine.execVmulhi u f s
  | .vmad w f => Sys2Proof.Machine.execVmad w f s
  | .vmin u f => Sys2Proof.Machine.execVmin u f s
  | .vmax u f => Sys2Proof.Machine.execVmax u f s
  | .vabs f => Sys2Proof.Machine.execVabs f s
  | .vneg f => Sys2Proof.Machine.execVneg f s
  | .vand f => Sys2Proof.Machine.execVand f s
  | .vor f => Sys2Proof.Machine.execVor f s
  | .vxor f => Sys2Proof.Machine.execVxor f s
  | .vnot f => Sys2Proof.Machine.execVnot f s
  | .vshl f => Sys2Proof.Machine.execVshl f s
  | .vshr f => Sys2Proof.Machine.execVshr f s
  | .vsar f => Sys2Proof.Machine.execVsar f s
  | .vrot f => Sys2Proof.Machine.execVrot f s
  | .vpopc f => Sys2Proof.Machine.execVpopc f s
  | .vclz f => Sys2Proof.Machine.execVclz f s
  | .vbfe u f => Sys2Proof.Machine.execVbfe u f s
  | .vbfi f => Sys2Proof.Machine.execVbfi f s
  | .vcmp c f => Sys2Proof.Machine.execVcmp c f s
  | .vmovl d lit => Sys2Proof.Machine.execVmovl d lit s
  | .vaddc f co ci => Sys2Proof.Machine.execVaddc f co ci s
  | .vsubb f co ci => Sys2Proof.Machine.execVsubb f co ci s
  | .vsel f sm => Sys2Proof.Machine.execVsel f sm s
  | .vmov w f => Sys2Proof.Machine.execVmov w f s
  -- Class 0, scalar (R171 to R173)
  | .sadd f => Sys2Proof.Machine.execSadd f s
  | .ssub f => Sys2Proof.Machine.execSsub f s
  | .smullo f => Sys2Proof.Machine.execSmullo f s
  | .smulhiI64 f => Sys2Proof.Machine.execSmulhiI64 f s
  | .smulhiN64 f => Sys2Proof.Machine.execSmulhiN64 f s
  | .smad f => Sys2Proof.Machine.execSmad f s
  | .smin u f => Sys2Proof.Machine.execSmin u f s
  | .smax u f => Sys2Proof.Machine.execSmax u f s
  | .sabs f => Sys2Proof.Machine.execSabs f s
  | .sneg f => Sys2Proof.Machine.execSneg f s
  | .sand f => Sys2Proof.Machine.execSand f s
  | .sor f => Sys2Proof.Machine.execSor f s
  | .sxor f => Sys2Proof.Machine.execSxor f s
  | .snot f => Sys2Proof.Machine.execSnot f s
  | .sshl f => Sys2Proof.Machine.execSshl f s
  | .sshr f => Sys2Proof.Machine.execSshr f s
  | .ssar f => Sys2Proof.Machine.execSsar f s
  | .srot f => Sys2Proof.Machine.execSrot f s
  | .spopc f => Sys2Proof.Machine.execSpopc f s
  | .sclz f => Sys2Proof.Machine.execSclz f s
  | .sbfe u f => Sys2Proof.Machine.execSbfe u f s
  | .sbfi f => Sys2Proof.Machine.execSbfi f s
  | .smov f => Sys2Proof.Machine.execSmov f s
  | .ssel f sm => Sys2Proof.Machine.execSsel f sm s
  | .scmp c f => Sys2Proof.Machine.execScmp c f s
  | .saddc f co ci => Sys2Proof.Machine.execSaddc f co ci s
  | .ssubb f co ci => Sys2Proof.Machine.execSsubb f co ci s
  | .smovl d hi lit => Sys2Proof.Machine.execSmovl d hi lit s
  | .saddl d a lit => Sys2Proof.Machine.execSaddl d a lit s
  -- Class 1, floating point (R174 to R182)
  | .vfadd r f => Sys2Proof.Machine.execVfadd r f s
  | .vfsub r f => Sys2Proof.Machine.execVfsub r f s
  | .vfmul r f => Sys2Proof.Machine.execVfmul r f s
  | .vfma r f => Sys2Proof.Machine.execVfma r f s
  | .vfmal r f lit => Sys2Proof.Machine.execVfmal r f lit s
  | .vfmin f => Sys2Proof.Machine.execVfmin f s
  | .vfmax f => Sys2Proof.Machine.execVfmax f s
  | .vfcmp c f => Sys2Proof.Machine.execVfcmp c f s
  | .vfclass f => Sys2Proof.Machine.execVfclass f s
  | .vfrnd r f => Sys2Proof.Machine.execVfrnd r f s
  | .vfcvt sat r d a dt st => Sys2Proof.Machine.execVfcvt sat r d a dt st s
  | .vfpack bf f => Sys2Proof.Machine.execVfpack bf f s
  | .vhadd2 bf f => Sys2Proof.Machine.execVhadd2 bf f s
  | .vhmul2 bf f => Sys2Proof.Machine.execVhmul2 bf f s
  | .vhfma2 bf f => Sys2Proof.Machine.execVhfma2 bf f s
  -- Class 2, special function and cross-lane (R183 to R191)
  | .vex2 d a dc => Sys2Proof.Machine.execVex2 d a dc s
  | .vlg2 d a dc => Sys2Proof.Machine.execVlg2 d a dc s
  | .vrcp d a dc => Sys2Proof.Machine.execVrcp d a dc s
  | .vrsq d a dc => Sys2Proof.Machine.execVrsq d a dc s
  | .vsqrt d a dc => Sys2Proof.Machine.execVsqrt d a dc s
  | .vsint d a dc => Sys2Proof.Machine.execVsint d a dc s
  | .vcost d a dc => Sys2Proof.Machine.execVcost d a dc s
  | .vtanh d a dc => Sys2Proof.Machine.execVtanh d a dc s
  | .vshflSel f dc seg => Sys2Proof.Machine.execVshflSel f dc seg s
  | .vshflRol f dc seg => Sys2Proof.Machine.execVshflRol f dc seg s
  | .vshflSlide f dc seg => Sys2Proof.Machine.execVshflSlide f dc seg s
  | .vshflAx f dc seg => Sys2Proof.Machine.execVshflAx f dc seg s
  | .vvoteAny d a dc => Sys2Proof.Machine.execVvoteAny d a dc s
  | .vvoteAll d a dc => Sys2Proof.Machine.execVvoteAll d a dc s
  | .vvoteBallot d a dc => Sys2Proof.Machine.execVvoteBallot d a dc s
  | .vred d a op x dc => Sys2Proof.Machine.execVred d a op x dc s
  | .vscan d a op x dc => Sys2Proof.Machine.execVscan d a op x dc s
  | .vhamm w f => Sys2Proof.Machine.execVhamm w f s
  | .vlanes d sm sc dc => Sys2Proof.Machine.execVlanes d sm sc dc s
  -- Class 3, memory and atomics (R192 to R211)
  | .ldg m => Sys2Proof.Machine.execLdg m s
  | .stg m => Sys2Proof.Machine.execStg m s
  | .ldgu m => Sys2Proof.Machine.execLdgu m s
  | .lds m => Sys2Proof.Machine.execLds m s
  | .sts m => Sys2Proof.Machine.execSts m s
  | .ldx m => Sys2Proof.Machine.execLdx m s
  | .stx m => Sys2Proof.Machine.execStx m s
  | .ldrot m => Sys2Proof.Machine.execLdrot m s
  | .stnt m => Sys2Proof.Machine.execStnt m s
  | .pref m => Sys2Proof.Machine.execPref m s
  | .drain dc => Sys2Proof.Machine.execDrain dc s
  | .cinv a b all dc => Sys2Proof.Machine.execCinv a b all dc s
  | .seal f => Sys2Proof.Machine.execSeal f s
  | .unseal f => Sys2Proof.Machine.execUnseal f s
  | .atomg k m => Sys2Proof.Machine.execAtomg k m s
  | .casg m => Sys2Proof.Machine.execCasg m s
  | .atoms k m => Sys2Proof.Machine.execAtoms k m s
  | .cass m => Sys2Proof.Machine.execCass m s
  | .atomx k m => Sys2Proof.Machine.execAtomx k m s
  | .atomxCas m => Sys2Proof.Machine.execAtomxCas m s
  -- Class 4, loom (R309 to R333)
  | .thdef h a => Sys2Proof.Machine.execThdef h a s
  | .acqb acc d dc => Sys2Proof.Machine.execAcqb acc d dc s
  | .relb acc => Sys2Proof.Machine.execRelb acc s
  | .mma acc ha hb vf dc => Sys2Proof.Machine.execMma acc ha hb vf dc s
  | .mzero acc dc => Sys2Proof.Machine.execMzero acc dc s
  | .mdrn f => Sys2Proof.Machine.execMdrn f s
  | .mstat d dc => Sys2Proof.Machine.execMstat d dc s
  -- Class 5, porter (R291 to R308)
  | .pcpy w clip cr bk => Sys2Proof.Machine.execPcpy w clip cr bk s
  | .pput w clip cr bk => Sys2Proof.Machine.execPput w clip cr bk s
  | .pgath w si cr bk wt pg => Sys2Proof.Machine.execPgath w si cr bk wt pg s
  | .pscat w si cr bk => Sys2Proof.Machine.execPscat w si cr bk s
  | .pstream w clip => Sys2Proof.Machine.execPstream w clip s
  | .pstop a dc => Sys2Proof.Machine.execPstop a dc s
  | .pquant w dfmt cr bk => Sys2Proof.Machine.execPquant w dfmt cr bk s
  | .bseal d dc => Sys2Proof.Machine.execBseal d dc s
  | .bwait a => Sys2Proof.Machine.execBwait a s
  | .pcred bk a => Sys2Proof.Machine.execPcred bk a s
  -- Class 6, ordering, waiting, control (R212 to R224)
  | .fence ord scope => Sys2Proof.Machine.execFence ord scope s
  | .dwait k n => Sys2Proof.Machine.execDwait k n s
  | .waitc d a b => Sys2Proof.Machine.execWaitc d a b s
  | .timewait a rel => Sys2Proof.Machine.execTimewait a rel s
  | .bru c sr off => Sys2Proof.Machine.execBru c sr off s
  | .brd sr off => Sys2Proof.Machine.execBrd sr off s
  | .jmp off => Sys2Proof.Machine.execJmp off s
  | .call sr off => Sys2Proof.Machine.execCall sr off s
  | .ret a => Sys2Proof.Machine.execRet a s
  | .exit => Sys2Proof.Machine.execExit s
  | .trap code => Sys2Proof.Machine.execTrap code s
  | .passpri a im g => Sys2Proof.Machine.execPasspri a im g s
  | .yield => Sys2Proof.Machine.execYield s
  | .sleep a im n => Sys2Proof.Machine.execSleep a im n s
  | .launch d a => Sys2Proof.Machine.execLaunch d a s
  | .enq d a => Sys2Proof.Machine.execEnq d a s
  | .brk code => Sys2Proof.Machine.execBrk code s
  -- Class 6, barriers (R284 to R289)
  | .binit k t b p => Sys2Proof.Machine.execBinit k t b p s
  | .barv k d dc => Sys2Proof.Machine.execBarv k d dc s
  | .barb k a => Sys2Proof.Machine.execBarb k a s
  | .bwaitp k p => Sys2Proof.Machine.execBwaitp k p s
  | .btest k d p sel dc => Sys2Proof.Machine.execBtest k d p sel dc s
  | .bdrop k => Sys2Proof.Machine.execBdrop k s
  -- Class 6, chandler (R348 to R350)
  | .alloc f => Sys2Proof.Machine.execAlloc f s
  | .free f => Sys2Proof.Machine.execFree f s
  | .sknew f => Sys2Proof.Machine.execSknew f s
  | .skapp f pb => Sys2Proof.Machine.execSkapp f pb s
  | .sklook f => Sys2Proof.Machine.execSklook f s
  | .sktrim f => Sys2Proof.Machine.execSktrim f s
  | .sktrimDel f => Sys2Proof.Machine.execSktrimDel f s
  | .skclone f => Sys2Proof.Machine.execSkclone f s
  | .skset f => Sys2Proof.Machine.execSkset f s
  | .skswap f => Sys2Proof.Machine.execSkswap f s
  | .refinc f => Sys2Proof.Machine.execRefinc f s
  | .refdec f => Sys2Proof.Machine.execRefdec f s
  | .poolq f => Sys2Proof.Machine.execPoolq f s
  -- Class 6, hoops (R366 to R371)
  | .asdecl f => Sys2Proof.Machine.execAsdecl f s
  | .asdrop f => Sys2Proof.Machine.execAsdrop f s
  | .asqry f => Sys2Proof.Machine.execAsqry f s
  | .vstat d dc => Sys2Proof.Machine.execVstat d dc s
  -- Class 7, system (R225, R226)
  | .srd d reg => Sys2Proof.Machine.execSrd d reg s
  | .swr a reg => Sys2Proof.Machine.execSwr a reg s
  | .tmark a code => Sys2Proof.Machine.execTmark a code s
  -- Device steps: groups and splits
  | .clauseFetch g => Sys2Proof.Machine.execClauseFetch g s
  | .laneFaultTimeout g => Sys2Proof.Machine.execLaneFaultTimeout g s
  | .spill g slot => Sys2Proof.Machine.execSpill g slot s
  | .binCloseTimeout core bin => Sys2Proof.Machine.execBinCloseTimeout core bin s
  | .fosterGroupForm core bin => Sys2Proof.Machine.execFosterGroupForm core bin s
  | .stoodDownReturn g => Sys2Proof.Machine.execStoodDownReturn g s
  | .timewaitExpiry g slot => Sys2Proof.Machine.execTimewaitExpiry g slot s
  | .sleepExpiry g slot => Sys2Proof.Machine.execSleepExpiry g slot s
  | .memcapUpdate core => Sys2Proof.Machine.execMemcapUpdate core s
  | .registerStoreFill g line => Sys2Proof.Machine.execRegisterStoreFill g line s
  -- Device steps: results and accesses
  | .sfuResult op lanes => Sys2Proof.Machine.execSfuResult op lanes s
  | .crosslaneResult op lanes => Sys2Proof.Machine.execCrosslaneResult op lanes s
  | .memoryAccessComplete op lanes => Sys2Proof.Machine.execMemoryAccessComplete op lanes s
  | .atomicComplete op lanes => Sys2Proof.Machine.execAtomicComplete op lanes s
  | .drainComplete op => Sys2Proof.Machine.execDrainComplete op s
  | .sealComplete op => Sys2Proof.Machine.execSealComplete op s
  | .unsealComplete op => Sys2Proof.Machine.execUnsealComplete op s
  | .waitcRecheck g slot => Sys2Proof.Machine.execWaitcRecheck g slot s
  | .homeSliceAccess op unit => Sys2Proof.Machine.execHomeSliceAccess op unit s
  -- Device steps: page faults and page movement
  | .sieveEmit core => Sys2Proof.Machine.execSieveEmit core s
  | .riddleRecord cluster => Sys2Proof.Machine.execRiddleRecord cluster s
  | .riddleForward cluster => Sys2Proof.Machine.execRiddleForward cluster s
  | .mpFaultAccept => Sys2Proof.Machine.execMpFaultAccept s
  | .promotionStart asid va => Sys2Proof.Machine.execPromotionStart asid va s
  | .promotionDone asid va => Sys2Proof.Machine.execPromotionDone asid va s
  | .promotionFail asid va => Sys2Proof.Machine.execPromotionFail asid va s
  | .promotionTimeout asid va => Sys2Proof.Machine.execPromotionTimeout asid va s
  | .coreWake core asid va => Sys2Proof.Machine.execCoreWake core asid va s
  | .mpMigration asid va stack => Sys2Proof.Machine.execMpMigration asid va stack s
  | .migrationDone asid va => Sys2Proof.Machine.execMigrationDone asid va s
  | .evictionDone asid va => Sys2Proof.Machine.execEvictionDone asid va s
  | .heatDecay => Sys2Proof.Machine.execHeatDecay s
  | .pageCommandEffect n => Sys2Proof.Machine.execPageCommandEffect n s
  -- Device steps: distributors, teams, kernels
  | .distributorSearch cluster => Sys2Proof.Machine.execDistributorSearch cluster s
  | .distributorPlace cluster => Sys2Proof.Machine.execDistributorPlace cluster s
  | .windowCopyOutDone team => Sys2Proof.Machine.execWindowCopyOutDone team s
  | .barrierSpill team reg => Sys2Proof.Machine.execBarrierSpill team reg s
  | .bankEvict loom team => Sys2Proof.Machine.execBankEvict loom team s
  | .preemptionComplete team => Sys2Proof.Machine.execPreemptionComplete team s
  | .swapOut team => Sys2Proof.Machine.execSwapOut team s
  | .teamRetire team => Sys2Proof.Machine.execTeamRetire team s
  | .kernelComplete kernel => Sys2Proof.Machine.execKernelComplete kernel s
  | .kernelFaulted kernel => Sys2Proof.Machine.execKernelFaulted kernel s
  -- Device steps: versions and hoops
  | .commitPoint team => Sys2Proof.Machine.execCommitPoint team s
  | .hoopReleaseArrival slice => Sys2Proof.Machine.execHoopReleaseArrival slice s
  | .woundArrival team => Sys2Proof.Machine.execWoundArrival team s
  | .versionDiscardDone team => Sys2Proof.Machine.execVersionDiscardDone team s
  | .teamRestart team => Sys2Proof.Machine.execTeamRestart team s
  | .tokenGrant => Sys2Proof.Machine.execTokenGrant s
  | .asdeclDeclare op => Sys2Proof.Machine.execAsdeclDeclare op s
  -- Device steps: porter
  | .porterChecksDone op => Sys2Proof.Machine.execPorterChecksDone op s
  | .porterCommandComplete op => Sys2Proof.Machine.execPorterCommandComplete op s
  | .porterStop op => Sys2Proof.Machine.execPorterStop op s
  | .pstreamTileStart core stream => Sys2Proof.Machine.execPstreamTileStart core stream s
  | .asyncCreditTrap g => Sys2Proof.Machine.execAsyncCreditTrap g s
  -- Device steps: loom
  | .loomPassStart loom => Sys2Proof.Machine.execLoomPassStart loom s
  | .loomPassEnd loom => Sys2Proof.Machine.execLoomPassEnd loom s
  | .mzeroDone op => Sys2Proof.Machine.execMzeroDone op s
  | .mdrnDone op => Sys2Proof.Machine.execMdrnDone op s
  | .bankZeroingDone loom bank => Sys2Proof.Machine.execBankZeroingDone loom bank s
  -- Device steps: chandler, dumps, ends
  | .chandlerOpComplete op => Sys2Proof.Machine.execChandlerOpComplete op s
  | .dumpWrite team => Sys2Proof.Machine.execDumpWrite team s
  | .contextQuiescence asid => Sys2Proof.Machine.execContextQuiescence asid s
  | .queueDrainDone asid qid => Sys2Proof.Machine.execQueueDrainDone asid qid s
  -- Context commands (R94)
  | .ctxCreate arenaMiB cred => Sys2Proof.Machine.execCtxCreate arenaMiB cred s
  | .ctxArm asid record payload => Sys2Proof.Machine.execCtxArm asid record payload s
  | .ctxActivate asid => Sys2Proof.Machine.execCtxActivate asid s
  | .ctxSuspend asid => Sys2Proof.Machine.execCtxSuspend asid s
  | .ctxResume asid => Sys2Proof.Machine.execCtxResume asid s
  | .ctxDrain asid cancel => Sys2Proof.Machine.execCtxDrain asid cancel s
  | .ctxQuery asid => Sys2Proof.Machine.execCtxQuery asid s
  | .dumpRead asid slot seq sig => Sys2Proof.Machine.execDumpRead asid slot seq sig s
  | .traceRead asid core seq sig => Sys2Proof.Machine.execTraceRead asid core seq sig s
  -- Queue commands (R108)
  | .qCreate asid prio c => Sys2Proof.Machine.execQCreate asid prio c s
  | .qActivate asid qid => Sys2Proof.Machine.execQActivate asid qid s
  | .qPause asid qid => Sys2Proof.Machine.execQPause asid qid s
  | .qResume asid qid => Sys2Proof.Machine.execQResume asid qid s
  | .qDrain asid qid cancel => Sys2Proof.Machine.execQDrain asid qid cancel s
  | .qEnq asid qid record => Sys2Proof.Machine.execQEnq asid qid record s
  | .qQuery asid qid => Sys2Proof.Machine.execQQuery asid qid s
  -- Page commands (R257)
  | .pgMap asid va n attr loc => Sys2Proof.Machine.execPgMap asid va n attr loc s
  | .pgUnmap asid va n => Sys2Proof.Machine.execPgUnmap asid va n s
  | .pgProtect asid va n r w x => Sys2Proof.Machine.execPgProtect asid va n r w x s
  | .pgMigrate asid va stack => Sys2Proof.Machine.execPgMigrate asid va stack s
  | .pgSethash asid va n mset => Sys2Proof.Machine.execPgSethash asid va n mset s
  | .pgEvict asid va n => Sys2Proof.Machine.execPgEvict asid va n s
  | .pgPromote asid va n => Sys2Proof.Machine.execPgPromote asid va n s
  | .pgQuery asid va => Sys2Proof.Machine.execPgQuery asid va s
  | .shAttach asid shared base size => Sys2Proof.Machine.execShAttach asid shared base size s
  | .pchQuery asid stack clear => Sys2Proof.Machine.execPchQuery asid stack clear s
  | .urXlate asid va n w pull => Sys2Proof.Machine.execUrXlate asid va n w pull s
  | .urReturn asid va n => Sys2Proof.Machine.execUrReturn asid va n s
  | .poolDefine asid defn => Sys2Proof.Machine.execPoolDefine asid defn s
  -- Debug commands (R388)
  | .dbgAttach asid => Sys2Proof.Machine.execDbgAttach asid s
  | .dbgDetach asid => Sys2Proof.Machine.execDbgDetach asid s
  | .dbgHold asid ktag team mask => Sys2Proof.Machine.execDbgHold asid ktag team mask s
  | .dbgRelease asid ktag team mask => Sys2Proof.Machine.execDbgRelease asid ktag team mask s
  | .dbgSnap asid ktag team => Sys2Proof.Machine.execDbgSnap asid ktag team s
  | .dbgWrite asid ktag team grp kind reg lanes value => Sys2Proof.Machine.execDbgWrite asid ktag team grp kind reg lanes value s
  -- Link commands (R392)
  | .lkConfig port timeout tmaster => Sys2Proof.Machine.execLkConfig port timeout tmaster s
  | .lkEnable port => Sys2Proof.Machine.execLkEnable port s
  | .lkDisable port => Sys2Proof.Machine.execLkDisable port s
  | .lkReset port => Sys2Proof.Machine.execLkReset port s
  | .lkQuery port => Sys2Proof.Machine.execLkQuery port s
  | .trustAdd hash => Sys2Proof.Machine.execTrustAdd hash s
  | .expCreate asid base size r w a peer => Sys2Proof.Machine.execExpCreate asid base size r w a peer s
  | .expDestroy asid window => Sys2Proof.Machine.execExpDestroy asid window s
  -- Device commands (R403)
  | .devInfo => Sys2Proof.Machine.execDevInfo s
  | .devAttest nonce => Sys2Proof.Machine.execDevAttest nonce s
  | .sensorRead => Sys2Proof.Machine.execSensorRead s
  | .islandSet island point => Sys2Proof.Machine.execIslandSet island point s
  | .pwrLimit watts => Sys2Proof.Machine.execPwrLimit watts s
  | .xferIn asid va data => Sys2Proof.Machine.execXferIn asid va data s
  | .xferOut asid va bytes => Sys2Proof.Machine.execXferOut asid va bytes s
  | .fwUpdate image => Sys2Proof.Machine.execFwUpdate image s
  -- Host writes, reset, power and links
  | .rspConsWrite value => Sys2Proof.Machine.execRspConsWrite value s
  | .registerWrite offset value => Sys2Proof.Machine.execRegisterWrite offset value s
  | .packageReset => Sys2Proof.Machine.execPackageReset s
  | .hbmTrainingDone => Sys2Proof.Machine.execHbmTrainingDone s
  | .islandStop island => Sys2Proof.Machine.execIslandStop island s
  | .islandResume island => Sys2Proof.Machine.execIslandResume island s
  | .sensorSample block => Sys2Proof.Machine.execSensorSample block s
  | .powerLimitStep => Sys2Proof.Machine.execPowerLimitStep s
  | .setPointRestore island => Sys2Proof.Machine.execSetPointRestore island s
  | .unitFailure kind id => Sys2Proof.Machine.execUnitFailure kind id s
  | .traceEpoch core => Sys2Proof.Machine.execTraceEpoch core s
  | .linkTrainingEnd port lanes peerTmaster => Sys2Proof.Machine.execLinkTrainingEnd port lanes peerTmaster s
  | .attestationAnswer port key report sig => Sys2Proof.Machine.execAttestationAnswer port key report sig s
  | .attestationTimeout port => Sys2Proof.Machine.execAttestationTimeout port s
  | .laneLoss port => Sys2Proof.Machine.execLaneLoss port s
  | .laneRetrain port => Sys2Proof.Machine.execLaneRetrain port s
  | .linkDrainDone port => Sys2Proof.Machine.execLinkDrainDone port s
  | .inboundRequest port tag window offset peer kind data => Sys2Proof.Machine.execInboundRequest port tag window offset peer kind data s
  | .remoteAnswer port tag answer => Sys2Proof.Machine.execRemoteAnswer port tag answer s
  | .remoteTimeoutExpiry port tag => Sys2Proof.Machine.execRemoteTimeoutExpiry port tag s
  | .cancelArrival port tag => Sys2Proof.Machine.execCancelArrival port tag s
  | .timeAlignSend port => Sys2Proof.Machine.execTimeAlignSend port s
  | .timeAlignMessage port gts delay => Sys2Proof.Machine.execTimeAlignMessage port gts delay s
  | .remoteBudgetAccrued op => Sys2Proof.Machine.execRemoteBudgetAccrued op s
  | .spillWriteDone g slot => Sys2Proof.Machine.execSpillWriteDone g slot s
  | .windowCopyInDone team => Sys2Proof.Machine.execWindowCopyInDone team s

end Sys2Proof.Machine
end

