-- ==== Sys2Proof/Machine/Sched.lean ====
section
/-!
DEFINITION. What moves next (log 1, log 4, log 8): the passing of time, the actions of the agenda, and, where the agenda is
empty, the machine's own order: the running split inside its clause, then device steps, then the groups in turn. The
meaning of an instruction is an argument here, so that this file stands before Dispatch.lean.
-/
namespace Sys2Proof.Machine

/-! ### Time (R18, R407) -/

/-- The clock of an operating point in MHz (R407). -/
def clockOf (point : Nat) : Nat :=
  match point with
  | 0 => 300
  | 1 => 450
  | 2 => 600
  | 3 => 675
  | _ => 750

/-- The voltage of an operating point in millivolts (R407). -/
def voltageOf (point : Nat) : Nat := 550 + 50 * min point 4

/-- Time passes: the time stamp, at half rate until its leader has caught up, the cycles of islands that run, and the stops of those
that stand still; none counts before the compute dies are released (R17, R18, R399, R406). -/
def State.advance (s : State) (ns : Nat) : State :=
  if s.pk.phase == .release || s.pk.phase == .ready then
    let slow := min ns s.pk.slowNs
    { s with
      pk := { s.pk with gts := s.pk.gts + (ns - slow) + (s.pk.slowNs / 2 - (s.pk.slowNs - slow) / 2), slowNs := s.pk.slowNs - slow }
      islands := s.islands.map fun e =>
        (e.1, if e.2.stopped then { e.2 with stoppedNs := e.2.stoppedNs + ns } else { e.2 with cyc1000 := e.2.cyc1000 + clockOf e.2.point * ns }) }
  else s

/-- The least time that moves the time stamp by one. -/
def State.tickOf (s : State) : Nat := if s.pk.slowNs = 0 then 1 else 2

/-- Steps whose time a rule fixes, so that no time passes while one of them is due: the stop of an island (R17), expiries (R147, R154,
R160, R216, R217, R255, R377, R394, R398, R407, R409), the decay of heat (R266), an epoch (R385) and the search of a distributor
(R113). -/
def State.timed (s : State) : List (State → Out) :=
  s.islands.flatMap (fun e => [execIslandStop e.1, execSetPointRestore e.1])
    ++ s.teams.map (fun e => execSwapOut e.1)
    ++ s.groups.flatMap (fun e => execLaneFaultTimeout e.1 ::
        (List.range 4).flatMap fun i => [execTimewaitExpiry e.1 i, execSleepExpiry e.1 i])
    ++ s.cores.flatMap (fun e =>
        e.2.bins.map (fun b => execBinCloseTimeout e.1 b.1) ++ [execMemcapUpdate e.1, execTraceEpoch e.1])
    ++ s.ctxs.flatMap (fun e => e.2.pages.map fun p => execPromotionTimeout e.1 p.1)
    ++ s.ports.flatMap (fun e => execAttestationTimeout e.1 :: e.2.out.map fun q => execRemoteTimeoutExpiry e.1 q.tag)
    ++ [execHeatDecay, execPowerLimitStep] ++ (List.range 8).map execDistributorSearch

/-- The step is one the device takes now. -/
def State.enabled (s : State) (f : State → Out) : Bool :=
  match f s with
  | .next _ => true
  | _ => false

/-- A step whose time is fixed is due. -/
def State.due (s : State) : Bool := s.timed.any s.enabled

/-- Time may pass: no island stands still for longer than 20 µs (R17), and no step whose time is fixed is due before the last moment of
it. -/
def State.mayPass (s : State) (ns : Nat) : Bool :=
  (s.islands.all fun e => !e.2.stopped || e.2.stoppedNs + ns ≤ islandStopMax)
    && !s.due && (ns ≤ s.tickOf || !(s.advance (ns - s.tickOf)).due)

/-- Let time pass, by the agenda. -/
def State.pass (s : State) (ns : Nat) : Out := if s.mayPass ns then .next (s.advance ns) else .refused .notEnabled

/-! ### Effects without a row of their own -/

/-- Deliver the results of a short operation: the operations it waits for are over (R34, R308). -/
def State.deliver (s : State) (op : Nat) : Out :=
  match s.readyOp op .short with
  | some o =>
    if o.waits.any fun w => (dget s.flight w).isSome then .refused .notEnabled else .next (s.deliverLanes op o 0xFFFFFFFF#32)
  | none => .refused .notEnabled

/-- An L1 evicts a line (R429). -/
def State.l1Evict (s : State) (core asid va : Nat) : Out :=
  match (s.core core).line asid va with
  | some l => .next (s.modCore core fun c => c.evict l)
  | none => .refused .notEnabled

/-! ### Issue (R32, R152) -/

/-- The team's groups may issue: it runs, or it stops on its core at its next clause boundary, and is not dumped yet (R157, R378,
R380), and no grant of the token holds it (R364). -/
def State.issues (s : State) (tid : Nat) (t : Team) : Bool :=
  (t.st == .running || (t.stopping && !t.dumped)) && !t.copyingIn && !s.granting tid t

/-- The issue slot may issue the next word in this cycle: one of class 2 goes on slot 0 in even island cycles, and on slot 1 in odd
ones (R164). -/
def Run.slotOpen (r : Run) (s : State) : Bool :=
  match mapOpcode (s.mapOf r.t.asid) (opcodeOf (r.sp.words.getD r.sp.nxt 0)) with
  | some op => op / 128 != 2 || s.cyc1000 r.g.core / 1000 % 2 == r.g.grp % 2
  | none => true

/-- The next word of the group chosen: its instruction with the state it is performed in, or the trap it raises; none at a
clause boundary, or where the group may not issue in this cycle (R145, R152, R164). -/
def State.issue (s : State) : Option (Sum Out (Instr × State)) :=
  match s.running with
  | some r =>
    if s.issues r.tid r.t && r.g.st == .live && !r.g.faultWait && !r.g.spills && r.g.idleTo ≤ s.cyc1000 r.g.core && r.slotOpen s then
      r.nextInstr s
    else none
  | none => none

/-- A group is eligible: its running split's next instruction can issue in this cycle (R152). One that stalls is idle after its
attempt. -/
def State.eligible (ex : Instr → State → Out) (s : State) (gid : Nat) : Bool :=
  match ({ s with cur := some gid } : State).issue with
  | none => false
  | some (.inl _) => true
  | some (.inr (i, s1)) =>
    match ex i s1 with
    | .next t => !((dget t.groups gid).map fun g => decide (t.cyc1000 g.core < g.idleTo)).getD false
    | .fault _ => true
    | .refused _ => false

/-- Note since when each group has been eligible without a break (R152). -/
def State.noteElig (ex : Instr → State → Out) (s : State) : State :=
  { s with groups := s.groups.map fun e =>
      (e.1, { e.2 with elig := if s.eligible ex e.1 then some (e.2.elig.getD (s.cyc1000 e.2.core)) else none }) }

/-- One list of numbers comes before another: the first place where they differ decides. -/
def comesBefore : List Nat → List Nat → Bool
  | a :: as, b :: bs => a < b || (a == b && comesBefore as bs)
  | _, _ => false

/-- The place of a group among those of its issue slot (R32, R152, R217): one that yields comes after those that do not; then the one
eligible since the earliest cycle; then the holder of the slot's token; then round-robin after the slot last issued. -/
def State.place (s : State) (gid : Nat) (g : Group) : List Nat :=
  let c := s.core g.core
  let even := g.grp % 2 == 0
  let cyc := s.cyc1000 g.core
  [ if cyc < g.yieldTo then 1 else 0,
    g.elig.getD cyc / 1000,
    if (if even then c.tok0 else c.tok1) == some gid then 0 else 1,
    (g.slot + 47 - (if even then c.last0 else c.last1)) % 48 ]

/-- Another group of its issue slot is eligible and comes before a group (R152). -/
def State.outranked (ex : Instr → State → Out) (s : State) (gid : Nat) : Bool :=
  match dget s.groups gid with
  | none => false
  | some g =>
    s.groups.any fun e =>
      e.1 != gid && e.2.core == g.core && e.2.grp % 2 == g.grp % 2 && comesBefore (s.place e.1 e.2) (s.place gid g)
        && s.eligible ex e.1

/-- A group is chosen: it issues its next word, unless another comes before it on its slot (R152), or fetches its next clause. -/
def State.turn (ex : Instr → State → Out) (gid : Nat) (s : State) : Out :=
  let s1 := { s with cur := some gid }
  match s1.issue with
  | some x =>
    if s1.outranked ex gid then .refused .notEnabled
    else
      match x with
      | .inl o => o
      | .inr (i, s2) => ex i s2
  | none => execClauseFetch gid s1

/-- The timing of its next instruction keeps a group from issuing in this cycle: its run of eligible cycles ends (R152, log 8). -/
def State.holdGroup (gid : Nat) (s : State) : Out :=
  match dget s.groups gid with
  | some g =>
    if g.st == .live then .next (s.setGroup gid { g with elig := none, idleTo := nextCycle (s.cyc1000 g.core) })
    else .refused .notEnabled
  | none => .refused .notEnabled

/-- One aligned word of the window moves at a time of its own, by the work that an operation names (R229, R321). -/
def movePiece (op word : Nat) (s : State) : Out :=
  match porterPiece op word s with
  | .refused _ => loomPiece op word s
  | o => o

/-! ### Actions of the agenda -/

/-- The MP takes the next request (R400). -/
def State.mpTake (ex : Instr → State → Out) (s : State) : Out :=
  match s.takeRequest with
  | some (.inl o) => o
  | some (.inr (i, s1)) => ex i s1
  | none => .refused .notEnabled

/-- The MP goes on to a command it put off (R94). -/
def State.mpNext (ex : Instr → State → Out) (s : State) : Out :=
  match s.takeLater with
  | some (i, s1) => ex i s1
  | none => .refused .notEnabled

/-- An action of the agenda. A program instruction moves only by a turn of its group, and a command only through the
mailbox. -/
def State.act (ex : Instr → State → Out) (a : Action) (s : State) : Out :=
  match a with
  | .ev i => if i.isProgram || isCommand i then .refused .notEnabled else ex i s
  | .pick g => s.turn ex g
  | .hold g => s.holdGroup g
  | .tick ns => s.pass ns
  | .deliver op => s.deliver op
  | .l1Evict core asid va => s.l1Evict core asid va
  | .tear op unit n => execTear op unit n s
  | .piece op word => movePiece op word s
  | .place tag cmd => .next (s.placeRequest tag cmd)
  | .frame slot hdr cmd => .next (s.writeFrame slot hdr cmd)
  | .peerNonce port bytes => s.answerNonce port bytes
  | .mpTake => s.mpTake ex
  | .mpNext => s.mpNext ex
  | .hostStore addr data => .next { s with mem := s.mem.writeN (slowKey addr) data }

/-! ### The machine's own order -/

/-- A step the device may take. -/
abbrev Move := State → Out

/-- The first of some steps that the device takes. -/
def firstMove (s : State) : List Move → Option State
  | [] => none
  | f :: fs =>
    match f s with
    | .next t => some t
    | _ => firstMove s fs

/-- Accesses of an operation, in order. -/
def unitMoves (id : Nat) (m : MemWork) : List Move := (List.range m.units.length).map fun i => execHomeSliceAccess id i

/-- What an operation may do next. -/
def opMoves (e : Nat × Op) : List Move :=
  let units := match e.2.work with
    | .mem m => unitMoves e.1 m ++ [execRemoteBudgetAccrued e.1]
    | _ => []
  match e.2.fam with
  | .sfu => [execSfuResult e.1 0xFFFFFFFF#32]
  | .crosslane => [execCrosslaneResult e.1 0xFFFFFFFF#32]
  | .memory => units ++ [execMemoryAccessComplete e.1 0xFFFFFFFF#32]
  | .atomic => units ++ [execAtomicComplete e.1 0xFFFFFFFF#32]
  | .drain => [execDrainComplete e.1]
  | .seal => [execSealComplete e.1]
  | .unseal => [execUnsealComplete e.1]
  | .porter => execPorterChecksDone e.1 :: units ++ [execPorterCommandComplete e.1, execPorterStop e.1]
  | .loom => [execMzeroDone e.1, execMdrnDone e.1]
  | .chandler => [execChandlerOpComplete e.1]
  | .asdecl => [execAsdeclDeclare e.1]
  | .short => [fun s => s.deliver e.1]

/-- What may happen at a page. -/
def pageMoves (asid : Nat) (e : Nat × Page) : List Move :=
  match e.2.st with
  | .faulting => [execPromotionStart asid e.1]
  | .promoting => [execPromotionDone asid e.1, execPromotionTimeout asid e.1]
  | .migrating => [execMigrationDone asid e.1]
  | .evicting => [execEvictionDone asid e.1]
  | .remote => if e.2.due then [execPromotionStart asid e.1] else []
  | .resident => []
  | .sealed => []

/-- What may happen to a context. -/
def ctxMoves (e : Nat × Ctx) : List Move :=
  e.2.pages.flatMap (pageMoves e.1) ++ e.2.queues.map (fun q => execQueueDrainDone e.1 q.1) ++ [execContextQuiescence e.1]
    ++ e.2.writing.toList.map fun d => execDumpWrite d.team

/-- What may happen on a core. -/
def coreMoves (e : Nat × Core) : List Move :=
  e.2.wakes.map (fun w => execCoreWake e.1 w.1 w.2.1) ++ [execSieveEmit e.1]
    ++ e.2.bins.flatMap (fun b => [execBinCloseTimeout e.1 b.1, execFosterGroupForm e.1 b.1])
    ++ e.2.streams.map (fun x => execPstreamTileStart e.1 x.1) ++ [execMemcapUpdate e.1, execTraceEpoch e.1]

/-- What may happen to a group besides its own turn. -/
def groupMoves (e : Nat × Group) : List Move :=
  [execAsyncCreditTrap e.1, execLaneFaultTimeout e.1, execStoodDownReturn e.1]
    ++ e.2.toLoad.map (execRegisterStoreFill e.1)
    ++ (List.range 4).flatMap fun i =>
      match (e.2.split i).st with
      | .blocked _ => [execSpill e.1 i, execSpillWriteDone e.1 i, execTimewaitExpiry e.1 i, execSleepExpiry e.1 i,
          execWaitcRecheck e.1 i]
      | _ => []

/-- What may happen to a team. -/
def teamMoves (e : Nat × Team) : List Move :=
  [execWoundArrival e.1, execVersionDiscardDone e.1, execTeamRestart e.1, execCommitPoint e.1, execPreemptionComplete e.1,
    execSwapOut e.1, execWindowCopyOutDone e.1, execWindowCopyInDone e.1, execDumpWrite e.1, execTeamRetire e.1]

/-- Room made for a search that fails. -/
def roomMoves (e : Nat × Team) : List Move :=
  if e.2.away then (List.range 16).map (execBarrierSpill e.1) ++ [execBankEvict (islandOf e.2.core) e.1] else []

/-- What may happen on a loom. -/
def loomMoves (e : Nat × Loom) : List Move :=
  [execLoomPassEnd e.1, execLoomPassStart e.1] ++ (List.range 8).map (execBankZeroingDone e.1)

/-- What may happen at a link port. -/
def portMoves (e : Nat × Port) : List Move :=
  e.2.out.map (fun q => execRemoteTimeoutExpiry e.1 q.tag) ++ [execLinkDrainDone e.1, execAttestationTimeout e.1,
    execTimeAlignSend e.1]

/-- What may happen on an island. -/
def islandMoves (e : Nat × Island) : List Move := [execIslandStop e.1, execIslandResume e.1, execSetPointRestore e.1]

/-- What may happen to the package as a whole. -/
def packageMoves (ex : Instr → State → Out) (s : State) : List Move :=
  match s.pk.phase with
  | .boot => [execPackageReset]
  | .hbmTraining => [execHbmTrainingDone]
  | _ => [State.mpNext ex, State.mpTake ex, execTokenGrant, execMpFaultAccept, execHeatDecay, execPowerLimitStep]

/-- The least latency of an access is over: in the machine's own order an access takes at least the cycles of a scratchpad load or of
an L1 hit (R19, log 1). -/
def State.aged (s : State) (o : Op) : Bool :=
  match o.work with
  | .mem m => m.kind.isPorter || o.at1000 + (if m.space == .global then 28000 else 18000) ≤ s.cyc1000 o.core
  | _ => true

/-- In the machine's own order the chandler operations of a group are performed in the order of their issue, but for those held for the
token (R345, log 1). -/
def State.inTurn (s : State) (e : Nat × Op) : Bool :=
  e.2.fam != .chandler ||
    !((s.flight.takeWhile fun x => x.1 != e.1).any fun x => x.2.group == e.2.group &&
      match x.2.work with
      | .chandler _ _ held => !held
      | _ => false)

/-- Every step the device may take now, in the machine's order. -/
def State.moves (ex : Instr → State → Out) (s : State) : List Move :=
  packageMoves ex s ++ (s.flight.filter fun e => s.aged e.2 && s.inTurn e).flatMap opMoves ++ s.mp.waiting.map (fun w => execPageCommandEffect w.id)
    ++ s.ctxs.flatMap ctxMoves ++ s.slices.map (fun e => execHoopReleaseArrival e.1)
    ++ (s.clusters.map fun e => execRiddleForward e.1) ++ ((List.range 8).map execRiddleRecord)
    ++ s.cores.flatMap coreMoves ++ s.looms.flatMap loomMoves ++ s.groups.flatMap groupMoves ++ s.teams.flatMap teamMoves
    ++ (s.kernels.flatMap fun e => [execKernelComplete e.1, execKernelFaulted e.1])
    ++ ((List.range 8).flatMap fun c => [execDistributorSearch c, execDistributorPlace c]) ++ s.teams.flatMap roomMoves
    ++ s.ports.flatMap portMoves ++ s.islands.flatMap islandMoves

/-- The groups in turn, from one that the time stamp names; a turn takes time. -/
def State.turns (ex : Instr → State → Out) (s : State) : List Move :=
  let n := s.pk.gts % s.groups.length
  ((s.groups.drop n ++ s.groups.take n).filter fun e => e.2.st == .live).map fun e =>
    fun s => (s.advance s.tickOf).turn ex e.1

/-- The machine's own next step: a device step, or a group's turn, or else time passes. -/
def State.own (ex : Instr → State → Out) (s : State) : Out :=
  match firstMove s (s.moves ex ++ s.turns ex) with
  | some t => .next t
  | none => .next (s.advance s.tickOf)

/-- One step: the head of the agenda; with none, the next word of the running split, unless another group comes before it; with
none, the machine's own order. An instruction that cannot issue now leaves its turn to others. -/
def State.move (ex : Instr → State → Out) (s : State) : Out :=
  match s.agenda with
  | a :: rest => { s with agenda := rest }.act ex a
  | [] =>
    match s.issue with
    | none => s.own ex
    | some x =>
      if s.outranked ex (s.cur.getD 0) then s.own ex
      else
        match x with
        | .inl o => o
        | .inr (i, s1) =>
          match ex i s1 with
          | .refused _ => s.own ex
          | o => o

/-- What is noted after every step: the traps that a debugger's hold brings (R377), the writes that waitc sees (R160, R214), since
when each group has been eligible (R152), and since when each team has waited (R160). -/
def State.noted (ex : Instr → State → Out) (s : State) : State := ((s.heldTraps.noteWaitc).noteElig ex).noteWaits

/-- A step, and what is noted after it. -/
def State.stepWith (ex : Instr → State → Out) (s : State) : Out :=
  match s.move ex with
  | .next t => .next (t.noted ex)
  | o => o

/-! ### A bench for one instruction (log 16) -/

/-- The words of the instruction at the head of a bit pattern: two where its opcode takes a literal or extension word. -/
def headWords (nbits w : Nat) : List Word :=
  match patternWords nbits w with
  | a :: rest =>
    match findRow (opcodeOf a) a with
    | some r => if r.ext.isSome then a :: rest else [a]
    | none => [a]
  | [] => []

/-- The header of a clause of some words. -/
def headerOf (ws : List Word) : Word :=
  match ws with
  | a :: _ => BitVec.ofNat 4 ws.length ++ BitVec.ofNat 3 (let c := opcodeOf a / 128; if c = 1 then 0 else c) ++ 0#25
  | [] => 0

/-- The launch record of a bench kernel: one group of sixteen granules, a window of 64 KiB, sixteen barrier entries. -/
def benchRecord : BitVec 1024 :=
  BitVec.ofNat 1024 (0x800 + 16 * 2 ^ 376 + 16 * 2 ^ 368 + 1 * 2 ^ 352 + (1 + 15 * 64) * 2 ^ 392)

/-- The page a bench program stands in: 2 MiB at address 0, readable, writable and executable. -/
def benchPage : Page :=
  { sc := 9, owner := 0, r := true, w := true, x := true, zero := true, back := 0, mset := 0, unified := false,
    hostlock := false, stackReq := 0xFF, st := .resident, frame := 0, newFrame := 0, loc := .none, locOff := 0,
    pinned := false, heat := 0, due := false, since := 0, hold := [], waiters := [], reached := 0, newMset := 0 }

/-- A context, kernel, team and group of one thread row, whose running split stands inside a clause of some words, none of
them issued; the clause also stands in memory at 0x800. -/
def State.bench (s : State) (ws : List Word) : State :=
  let a := s.nextAsid
  let n := s.nextId
  let c := { Ctx.created 64 [] with st := .active, pages := [(0, benchPage)] }
  let k0 := { Kernel.enqueued a benchRecord 0 (.segment a 0 0) with st := .running, ptr := 0 }
  let k := { k0 with next := 1 }
  let t := newTeam n k0 0 0 0 s.pk.gts
  let g := k.freshGroup (n + 1) 0 0 0 0
  let sp := { g.split 0 with hdr := 0x800, words := ws, pos := 0, nxt := 0, pc := 0x800 + 4 * (ws.length + 1) }
  { s with
    pk := { s.pk with phase := .ready, lastAsid := a }
    islands := dset s.islands 0 { Island.reset with point := 2, setPoint := 2 }
    ctxs := dset s.ctxs a c
    kernels := dset s.kernels n k
    teams := dset s.teams (n + 1) t
    groups := dset s.groups (n + 2) { g.setSplit 0 sp with run := some 0, last := 0 }
    mem := s.mem.writeN 0x800 ((headerOf ws :: ws).flatMap bytesOfWord)
    agenda := []
    nextId := n + 3
    cur := some (n + 2) }

end Sys2Proof.Machine
end

