-- ==== Sys2Proof/Machine/Step.lean ====
section
/-!
DEFINITION. One step of the machine, and the state whose next step runs a given instruction.
-/
namespace Sys2Proof.Machine

/-- One step (log 4). -/
def step (s : State) : Host.Outcome State Fault Refusal := s.stepWith exec

/-- The state with an instruction placed where the next step issues from: the clause that holds it has been fetched and its
group runs (log 16). -/
def State.withFetchWord (s : State) (nbits w : Nat) : State := s.bench (headWords nbits w)

end Sys2Proof.Machine
end

