-- ==== Sys2Proof/Safety.lean ====
section
/-!
DEFINITION. The terms in which statements about the machine are made: what a step leaves unchanged, how a register-only
instruction writes, how an operation is issued, and the invariants of a state.
-/
namespace Sys2Proof.Machine

/-- Every byte of memory reads as before. -/
def SameMemory (s t : State) : Prop := ∀ a, t.mem.read a = s.mem.read a

/-- Every byte outside `n` bytes from `a` on reads as before, and those read as the list given. -/
def StoresAt (s t : State) (a : Nat) (bs : List Byte) : Prop :=
  ∀ x, t.mem.read x = if a ≤ x ∧ x < a + bs.length then bs.getD (x - a) 0 else s.mem.read x

/-- Nothing changes but one group: every other field of the state, memory and all, and every other group is as before. -/
structure OnlyGroup (s t : State) (gid : Nat) (g : Group) : Prop where
  rest : t = { s with groups := t.groups }
  here : dget t.groups gid = some g
  others : ∀ n, n ≠ gid → dget t.groups n = dget s.groups n

/-- The step completes, writes V[d] in the active lanes and changes nothing else (R27, R163). -/
def VecOut (s : State) (r : Run) (d : Reg7) (f : Nat → Word) (o : Out) : Prop :=
  ∃ t v, o = .next t ∧ OnlyGroup s t r.gid { r.g with v := v } ∧
    ∀ n l, l < 32 → ({ r.g with v := v } : Group).vreg n l =
      if n = d.toNat ∧ r.act.getLsbD l = true then f l else r.g.vreg n l

/-- The same for a pair: V[d] takes the low half and V[d+1] the high half (R25). -/
def PairOut (s : State) (r : Run) (d : Reg7) (f : Nat → DWord) (o : Out) : Prop :=
  ∃ t v, o = .next t ∧ OnlyGroup s t r.gid { r.g with v := v } ∧
    ∀ n l, l < 32 → ({ r.g with v := v } : Group).vreg n l =
      if n = d.toNat ∧ r.act.getLsbD l = true then (f l).extractLsb' 0 32
      else if n = d.toNat + 1 ∧ r.act.getLsbD l = true then (f l).extractLsb' 32 32
      else r.g.vreg n l

/-- The step completes, writes S[d] and changes nothing else (R163). -/
def ScalOut (s : State) (r : Run) (d : Reg7) (x : DWord) (o : Out) : Prop :=
  ∃ t m, o = .next t ∧ OnlyGroup s t r.gid { r.g with s := m } ∧
    ∀ n, ({ r.g with s := m } : Group).sreg n = if n = d.toNat then x else r.g.sreg n

/-- The step completes, writes V[d] in the active lanes and S[c], and changes nothing else (R169). -/
def VecScalOut (s : State) (r : Run) (d : Reg7) (f : Nat → Word) (c : SReg) (x : DWord) (o : Out) : Prop :=
  ∃ t v m, o = .next t ∧ OnlyGroup s t r.gid { r.g with v := v, s := m } ∧
    (∀ n l, l < 32 → ({ r.g with v := v, s := m } : Group).vreg n l =
      if n = d.toNat ∧ r.act.getLsbD l = true then f l else r.g.vreg n l) ∧
    ∀ n, ({ r.g with v := v, s := m } : Group).sreg n = if n = c.toNat then x else r.g.sreg n

/-- The step completes, writes S[d] and then S[c], and changes nothing else (R172). -/
def ScalScalOut (s : State) (r : Run) (d : Reg7) (x : DWord) (c : SReg) (y : DWord) (o : Out) : Prop :=
  ∃ t m, o = .next t ∧ OnlyGroup s t r.gid { r.g with s := m } ∧
    ∀ n, ({ r.g with s := m } : Group).sreg n =
      if n = c.toNat then y else if n = d.toNat then x else r.g.sreg n

/-- A lane mask in a scalar: bit l for an active lane l where the test holds; [63:32] and inactive lanes zero (R26). -/
def IsMask (r : Run) (p : Nat → Bool) (x : DWord) : Prop := ∀ l, x.getLsbD l = (r.act.getLsbD l && p l)

/-- A dependency counter of the issuing group is named and does not stand at 63 (R34). -/
def CounterFree (r : Run) (dc : DcField) : Prop := dc.toNat ≤ 5 ∧ r.g.cnt dc.toNat ≠ 63

/-- The groups after an operation of the running split has been issued: counter `k` of the issuing group is one higher, its
registers and everything else of it are as before but for the record of the operation, and so is every other group. -/
structure CountedUp (s t : State) (r : Run) (k : Nat) : Prop where
  here : ∃ sp, dget t.groups r.gid = some { r.g with dc := r.g.dc.set k (r.g.cnt k + 1), splits := sp }
  others : ∀ n, n ≠ r.gid → dget t.groups n = dget s.groups n

/-- The step completes by issuing an operation whose results are known and will be written later: it stands in flight under
the state's next number, with its counter, its lanes and its results; the counter goes up; nothing else changes (R34, R35). -/
def Issues (s : State) (r : Run) (fam : Family) (dc : DcField) (vout : List LaneOut) (sout : List (Nat × DWord)) (o : Out) :
    Prop :=
  ∃ t op, o = .next t
    ∧ t = { s with nextId := s.nextId + 1, flight := s.flight ++ [(s.nextId, op)], groups := t.groups }
    ∧ CountedUp s t r dc.toNat
    ∧ op.group = r.gid ∧ op.team = r.tid ∧ op.fam = fam ∧ op.dc = some dc.toNat ∧ op.mask = r.act
    ∧ op.work = .none ∧ op.vout = vout ∧ op.sout = sout

/-- Every group there was is there, with its registers and counters as before. -/
def KeepsGroups (s t : State) : Prop :=
  ∀ n g, dget s.groups n = some g → ∃ g', dget t.groups n = some g' ∧ g'.v = g.v ∧ g'.s = g.s ∧ g'.dc = g.dc

/-- The parts of a lane's access: its address, bytes and data, and two halves where it takes 16 bytes (R229). -/
def laneParts (n l a : Nat) (data : List Byte) : List (Nat × Nat × Nat × List Byte) :=
  if n = 16 then [(l, a, 8, data.take 8), (l, a + 8, 8, data.drop 8)] else [(l, a, n, data)]

/-- An operation of the running split has been issued under a number: it is in flight with a property, its counter, if it
names one, is one higher, and memory, registers and every other group are as before (R34). -/
structure OpIssued (s t : State) (r : Run) (id : Nat) (dc : Option Nat) (P : Op → Prop) : Prop where
  mem : t.mem = s.mem
  op : ∃ o, t.flight = s.flight ++ [(id, o)] ∧ o.group = r.gid ∧ o.team = r.tid ∧ o.dc = dc ∧ P o
  here : ∃ g, dget t.groups r.gid = some g ∧ g.v = r.g.v ∧ g.s = r.g.s
    ∧ g.dc = match dc with
      | some n => r.g.dc.set n (r.g.cnt n + 1)
      | none => r.g.dc
  others : ∀ n, n ≠ r.gid → dget t.groups n = dget s.groups n

/-- The step completes by issuing an operation with a property (R34). -/
def IssuesOp (s : State) (r : Run) (dc : DcField) (P : Op → Prop) (out : Out) : Prop :=
  ∃ t, out = .next t ∧ OpIssued s t r s.nextId (dcOf dc) P

/-- The step completes by issuing a memory instruction in all its lanes: the operation in flight has an access for every
part listed (R34, R192, R194). -/
def IssuesMem (s : State) (r : Run) (m : Fm) (k : AccKind) (sp : Space) (parts : List (Nat × Nat × Nat × List Byte))
    (out : Out) : Prop :=
  ∃ t, out = .next t ∧ OpIssued s t r (s.nextId + 1) (dcOf m.dc) fun o =>
    ∃ w, o.work = .mem w ∧ w.kind = k ∧ w.space = sp ∧ w.d = m.d.toNat ∧ w.size = m.size.toNat
      ∧ w.units.map (fun u => (u.lane, u.addr, u.n, u.data)) = parts

/-- The counter an instruction names, if it names one, does not stand at 63 (R34). -/
def Countable (r : Run) (dc : DcField) : Prop := ∀ k, dcOf dc = some k → r.g.cnt k ≠ 63

/-- An address in a RESIDENT page that permits an access type to a team and lies in no region of another mode (R251, R397). -/
def OpenPage (s : State) (t : Team) (a : AccType) (va : Nat) : Prop :=
  canonical va = true ∧ ∃ x b p, s.pageAt t.asid va = some (x, b, p) ∧ p.permits a = true ∧ p.st = .resident
    ∧ (t.mode = .normal → s.regionAt t.asid va = none) ∧ (t.mode = .version → p.back ≠ 2)

/-- The operation with a number has left flight, and the counter it named, if any, is one lower in its group; the other
counters are as before (R34). -/
def CountedDown (t : State) (id : Nat) (o : Op) (g : Group) : Prop :=
  dget t.flight id = none ∧ ∃ g', dget t.groups o.group = some g' ∧
    ∀ k, g'.cnt k = if o.dc = some k then g.cnt k - 1 else g.cnt k

/-- A split of a group is BLOCKED for a reason, at its instruction; registers and counters of the group are as before (R135). -/
def Blocks (t : State) (r : Run) (b : Block) : Prop :=
  ∃ g', dget t.groups r.gid = some g' ∧ (g'.split r.slot).st = .blocked b ∧ g'.v = r.g.v ∧ g'.s = r.g.s ∧ g'.dc = r.g.dc

/-- A split of a group that was BLOCKED is READY again; registers of the group are as before (R135). -/
def Wakes (t : State) (gid slot : Nat) (g : Group) : Prop :=
  ∃ g', dget t.groups gid = some g' ∧ (g'.split slot).st = .ready ∧ g'.v = g.v ∧ g'.s = g.s

/-- The running split stands where a branch sends it; everything but its PC and the trace ring of its core is as before. -/
def Branches (s : State) (r : Run) (g : Group) (target : Nat) (o : Out) : Prop :=
  ∃ t, o = .next t ∧ t = { s with groups := t.groups, cores := t.cores }
    ∧ dget t.groups r.gid = some (g.setSplit r.slot { r.sp with pc := target })
    ∧ ∀ n, n ≠ r.gid → dget t.groups n = dget s.groups n

/-- The team of the running split has taken a trap: its record is the last of the team, with code, detail, lanes, header, word
index and word of the instruction, and the team is HALTING; memory and registers are as before (R378, R379). -/
def TakesTrap (s : State) (r : Run) (code detail : Nat) (o : Out) : Prop :=
  ∃ t u, o = .next t ∧ t.mem = s.mem ∧ dget t.teams r.tid = some u ∧ u.st = .halting
    ∧ (∃ tr, u.traps = r.t.traps ++ [tr] ∧ tr.code = code ∧ tr.detail = detail ∧ tr.grp = r.g.grp ∧ tr.lanes = r.act
        ∧ tr.hdr = r.sp.hdr ∧ tr.idx = r.sp.pos + 1 ∧ tr.word = r.word ∧ tr.gts = s.pk.gts)
    ∧ ∃ g, dget t.groups r.gid = some g ∧ g.v = r.g.v ∧ g.s = r.g.s ∧ g.run = none

/-- The step answers a mailbox command with a code, data and bytes: the response stands in the next response slot under the
command's tag, and vector 0 is signalled (R400). -/
def Answers (s t : State) (code : Nat) (data : List DWord) (bytes : List Byte) : Prop :=
  dget t.pk.rspSlots (s.pk.rspProd % 32) = some ⟨s.tag, code, data, bytes⟩
    ∧ t.pk.rspProd = (s.pk.rspProd + 1) % 2 ^ 32 ∧ t.pk.msix[0]? = s.pk.msix[0]?.map (· + 1)

/-- The step answers a command with a code and data, and a context is another; nothing else changes but the words of the
mailbox (R400). -/
structure CommandOut (s : State) (asid : Nat) (c : Ctx) (code : Nat) (data : List DWord) (t : State) : Prop where
  rest : t = { s with ctxs := t.ctxs, pk := t.pk }
  package : t.pk = { s.pk with rspSlots := t.pk.rspSlots, rspProd := t.pk.rspProd, msix := t.pk.msix }
  answer : Answers s t code data []
  here : dget t.ctxs asid = some c
  others : ∀ n, n ≠ asid → dget t.ctxs n = dget s.ctxs n

/-- The step completes by answering a command, and a context is another. -/
def Commands (s : State) (asid : Nat) (c : Ctx) (code : Nat) (data : List DWord) (o : Out) : Prop :=
  ∃ t, o = .next t ∧ CommandOut s asid c code data t

/-- A page of an address space is another; every other page is as before (R255). -/
def PageBecomes (s t : State) (asid va : Nat) (p : Page) : Prop :=
  (dget t.ctxs asid).bind (fun c => dget c.pages va) = some p ∧
  ∀ a b, (a, b) ≠ (asid, va) →
    (dget t.ctxs a).bind (fun c => dget c.pages b) = (dget s.ctxs a).bind fun c => dget c.pages b

/-- n bytes of storage have been copied; every other byte is as before. -/
def Copies (s t : State) (src dst n : Nat) : Prop :=
  ∀ a, t.mem.read a = if dst ≤ a ∧ a < dst + n then s.mem.read (src + (a - dst)) else s.mem.read a

/-- n bytes of storage are zero; every other byte is as before. -/
def Zeroes (s t : State) (b n : Nat) : Prop :=
  ∀ a, t.mem.read a = if b ≤ a ∧ a < b + n then 0 else s.mem.read a

/-- No page holds a frame. -/
def FrameFree (t : State) (f : Nat) : Prop := ∀ x ∈ t.frames, x.1 ≠ f

/-- A frame is given up: it is zero, unless another page still holds it (R252, R255). -/
def GivesUp (s t : State) (f n : Nat) : Prop :=
  (FrameFree t f → Zeroes s t f n) ∧ (¬FrameFree t f → t.mem = s.mem)

/-- The MP serves commands and the ring of responses has room (R400, R406). -/
def Serves (s : State) : Prop := s.pk.phase = .ready ∧ s.roomToPost = true

/-- A context is live in one of some states. -/
def LiveIn (s : State) (asid : Nat) (c : Ctx) (sts : List CtxSt) : Prop := dget s.ctxs asid = some c ∧ c.st ∈ sts

/-- The invariant of memory: it keeps its canonical form. -/
def Inv (s : State) : Prop := s.mem.wf

end Sys2Proof.Machine
end

