-- ==== Sys2Proof/Certificates/Slice0/Obligations.lean ====
section
/-!
DEFINITION. The statements about the machine that are to be proved, by the order of the opcode table: results of the
arithmetic instructions, issue and completion of the others, device events, commands, and the machine as a whole.
-/
open Sys2Proof Sys2Proof.Machine

/-! ### Arithmetic -/

/-- Source b is V[b], or S[b] where sb is 1, of which a 32-bit operation reads the low half; a pair is its even register
below and its odd one above (R25, R162). -/
def Obligations.OperandForms : Prop :=
  ∀ (r : Run) (b : Reg7) (n l : Nat),
    r.src32 b 0 l = r.g.vreg b.toNat l
    ∧ r.src32 b 1 l = BitVec.ofNat 32 (r.g.sreg b.toNat).toNat
    ∧ r.src64 b 0 l = r.g.vreg2 b.toNat l
    ∧ r.src64 b 1 l = r.g.sreg b.toNat
    ∧ (r.g.vreg2 n l).toNat = (r.g.vreg n l).toNat + 2 ^ 32 * (r.g.vreg (n + 1) l).toNat

/-- The integer conditions by their codes: equality, then signed, then unsigned order (R49). -/
def Obligations.IntegerConditions : Prop :=
  ∀ (w : Nat) (a b : BitVec w),
    (intCond 0 a b = true ↔ a = b) ∧ (intCond 1 a b = true ↔ a ≠ b)
    ∧ (intCond 2 a b = true ↔ a.toInt < b.toInt) ∧ (intCond 3 a b = true ↔ a.toInt ≤ b.toInt)
    ∧ (intCond 4 a b = true ↔ b.toInt < a.toInt) ∧ (intCond 5 a b = true ↔ b.toInt ≤ a.toInt)
    ∧ (intCond 6 a b = true ↔ a.toNat < b.toNat) ∧ (intCond 7 a b = true ↔ a.toNat ≤ b.toNat)
    ∧ (intCond 8 a b = true ↔ b.toNat < a.toNat) ∧ (intCond 9 a b = true ↔ b.toNat ≤ a.toNat)

/-- Every vector integer instruction completes with the result of R165 to R170, computed on unbounded integers and taken
modulo 2^w, in the active lanes of its destination, and changes nothing else. -/
def Obligations.VectorIntegerResults : Prop :=
  ∀ (s : State) (r : Run), s.running = some r → ∀ (f : F3) (u : U3) (c : BitVec 4) (d : Reg7) (lit : Word) (x y : SReg),
    VecOut s r f.d (fun l => BitVec.ofNat 32 ((r.a32 f l).toNat + (r.b32 f l).toNat)) (exec (.vadd 0 f) s)
    ∧ PairOut s r f.d (fun l => BitVec.ofNat 64 ((r.a64 f l).toNat + (r.b64 f l).toNat)) (exec (.vadd 1 f) s)
    ∧ VecOut s r f.d (fun l => BitVec.ofInt 32 ((r.a32 f l).toNat - (r.b32 f l).toNat)) (exec (.vsub 0 f) s)
    ∧ PairOut s r f.d (fun l => BitVec.ofInt 64 ((r.a64 f l).toNat - (r.b64 f l).toNat)) (exec (.vsub 1 f) s)
    ∧ VecOut s r f.d (fun l => BitVec.ofNat 32 ((r.a32 f l).toNat * (r.b32 f l).toNat)) (exec (.vmullo 0 f) s)
    ∧ PairOut s r f.d (fun l => BitVec.ofNat 64 ((r.a64 f l).toNat * (r.b64 f l).toNat)) (exec (.vmullo 1 f) s)
    ∧ VecOut s r f.d (fun l => BitVec.ofInt 32 ((r.a32 f l).toInt * (r.b32 f l).toInt / 2 ^ 32)) (exec (.vmulhi 0 f) s)
    ∧ VecOut s r f.d (fun l => BitVec.ofNat 32 ((r.a32 f l).toNat * (r.b32 f l).toNat / 2 ^ 32)) (exec (.vmulhi 1 f) s)
    ∧ VecOut s r f.d (fun l => BitVec.ofNat 32 ((r.a32 f l).toNat * (r.b32 f l).toNat + (r.g.vreg f.d.toNat l).toNat))
        (exec (.vmad 0 f) s)
    ∧ PairOut s r f.d (fun l => BitVec.ofNat 64 ((r.a64 f l).toNat * (r.b64 f l).toNat + (r.g.vreg2 f.d.toNat l).toNat))
        (exec (.vmad 1 f) s)
    ∧ VecOut s r f.d (fun l => if (r.a32 f l).toInt < (r.b32 f l).toInt then r.a32 f l else r.b32 f l) (exec (.vmin 0 f) s)
    ∧ VecOut s r f.d (fun l => if (r.a32 f l).toNat < (r.b32 f l).toNat then r.a32 f l else r.b32 f l) (exec (.vmin 1 f) s)
    ∧ VecOut s r f.d (fun l => if (r.a32 f l).toInt < (r.b32 f l).toInt then r.b32 f l else r.a32 f l) (exec (.vmax 0 f) s)
    ∧ VecOut s r f.d (fun l => if (r.a32 f l).toNat < (r.b32 f l).toNat then r.b32 f l else r.a32 f l) (exec (.vmax 1 f) s)
    ∧ VecOut s r u.d (fun l => BitVec.ofNat 32 (r.src32 u.b u.sb l).toInt.natAbs) (exec (.vabs u) s)
    ∧ VecOut s r u.d (fun l => BitVec.ofInt 32 (-(r.src32 u.b u.sb l).toInt)) (exec (.vneg u) s)
    ∧ VecOut s r f.d (fun l => r.a32 f l &&& r.b32 f l) (exec (.vand f) s)
    ∧ VecOut s r f.d (fun l => r.a32 f l ||| r.b32 f l) (exec (.vor f) s)
    ∧ VecOut s r f.d (fun l => r.a32 f l ^^^ r.b32 f l) (exec (.vxor f) s)
    ∧ VecOut s r u.d (fun l => ~~~(r.src32 u.b u.sb l)) (exec (.vnot u) s)
    ∧ VecOut s r f.d (fun l => BitVec.ofNat 32 ((r.a32 f l).toNat * 2 ^ ((r.b32 f l).toNat % 32))) (exec (.vshl f) s)
    ∧ VecOut s r f.d (fun l => BitVec.ofNat 32 ((r.a32 f l).toNat / 2 ^ ((r.b32 f l).toNat % 32))) (exec (.vshr f) s)
    ∧ VecOut s r f.d (fun l => BitVec.ofInt 32 ((r.a32 f l).toInt / 2 ^ ((r.b32 f l).toNat % 32))) (exec (.vsar f) s)
    ∧ VecOut s r f.d (fun l => (r.a32 f l).rotateLeft ((r.b32 f l).toNat % 32)) (exec (.vrot f) s)
    ∧ VecOut s r u.d (fun l => BitVec.ofNat 32 ((List.range 32).filter fun i => (r.src32 u.b u.sb l).getLsbD i).length)
        (exec (.vpopc u) s)
    ∧ VecOut s r u.d (fun l => BitVec.ofNat 32 (if r.src32 u.b u.sb l = 0 then 32 else 31 - (r.src32 u.b u.sb l).toNat.log2))
        (exec (.vclz u) s)
    ∧ VecOut s r f.d (fun l =>
        let b := (r.b32 f l).toNat
        let n := if 32 ≤ b % 256 then 0 else min (b / 256 % 256) (32 - b % 256)
        BitVec.ofNat 32 ((r.a32 f l).toNat / 2 ^ (b % 256) % 2 ^ n)) (exec (.vbfe 0 f) s)
    ∧ VecOut s r f.d (fun l =>
        let b := (r.b32 f l).toNat
        let n := if 32 ≤ b % 256 then 0 else min (b / 256 % 256) (32 - b % 256)
        let v : Int := ((r.a32 f l).toNat / 2 ^ (b % 256) % 2 ^ n : Nat)
        BitVec.ofInt 32 (if n ≠ 0 ∧ 2 ^ (n - 1) ≤ v then v - 2 ^ n else v)) (exec (.vbfe 1 f) s)
    ∧ VecOut s r f.d (fun l =>
        let b := (r.b32 f l).toNat
        let n := if 32 ≤ b % 256 then 0 else min (b / 256 % 256) (32 - b % 256)
        let m : Word := BitVec.ofNat 32 (2 ^ n - 1)
        (r.g.vreg f.d.toNat l &&& ~~~(m <<< (b % 256))) ||| ((r.a32 f l &&& m) <<< (b % 256))) (exec (.vbfi f) s)
    ∧ (∃ v, ScalOut s r f.d v (exec (.vcmp c f) s) ∧ IsMask r (fun l => intCond c (r.a32 f l) (r.b32 f l)) v)
    ∧ VecOut s r d (fun _ => lit) (exec (.vmovl d lit) s)
    ∧ (∃ v, IsMask r (fun l => 2 ^ 32 ≤ (r.a32 f l).toNat + (r.b32 f l).toNat + ((r.sx y).getLsbD l).toNat) v
        ∧ VecScalOut s r f.d (fun l => BitVec.ofNat 32
            ((r.a32 f l).toNat + (r.b32 f l).toNat + ((r.sx y).getLsbD l).toNat)) x v (exec (.vaddc f x y) s))
    ∧ (∃ v, IsMask r (fun l => (r.a32 f l).toNat < (r.b32 f l).toNat + ((r.sx y).getLsbD l).toNat) v
        ∧ VecScalOut s r f.d (fun l => BitVec.ofInt 32
            ((r.a32 f l).toNat - (r.b32 f l).toNat - ((r.sx y).getLsbD l).toNat)) x v (exec (.vsubb f x y) s))
    ∧ VecOut s r f.d (fun l => if (r.sx x).getLsbD l = true then r.a32 f l else r.b32 f l) (exec (.vsel f x) s)
    ∧ VecOut s r u.d (fun l => r.src32 u.b u.sb l) (exec (.vmov 0 u) s)
    ∧ PairOut s r u.d (fun l => r.src64 u.b u.sb l) (exec (.vmov 1 u) s)

/-- Every scalar instruction completes with the result of R171 to R173 in its destination, once whatever the mask, and changes
nothing else. Where saddc or ssubb names one register for both results, the carry stands in it: that is the model's reading
(log 21), which no rule states. -/
def Obligations.ScalarIntegerResults : Prop :=
  ∀ (s : State) (r : Run), s.running = some r → ∀ (f : S3) (u : SU) (c : BitVec 4) (d e : Reg7) (lit : Word) (x y : SReg),
    let a := r.sc f.a
    let b := r.sc f.b
    let v := r.sc u.b
    let p := b.toNat % 256
    let n := if 64 ≤ p then 0 else min (b.toNat / 256 % 256) (64 - p)
    let fld : Int := (a.toNat / 2 ^ p % 2 ^ n : Nat)
    let m : DWord := BitVec.ofNat 64 (2 ^ n - 1)
    let ci := ((r.sx y).getLsbD 0).toNat
    ScalOut s r f.d (BitVec.ofNat 64 (a.toNat + b.toNat)) (exec (.sadd f) s)
    ∧ ScalOut s r f.d (BitVec.ofInt 64 (a.toNat - b.toNat)) (exec (.ssub f) s)
    ∧ ScalOut s r f.d (BitVec.ofNat 64 (a.toNat * b.toNat)) (exec (.smullo f) s)
    ∧ ScalOut s r f.d (BitVec.ofInt 64 (a.toInt * b.toInt / 2 ^ 64)) (exec (.smulhiI64 f) s)
    ∧ ScalOut s r f.d (BitVec.ofNat 64 (a.toNat * b.toNat / 2 ^ 64)) (exec (.smulhiN64 f) s)
    ∧ ScalOut s r f.d (BitVec.ofNat 64 (a.toNat * b.toNat + (r.sc f.d).toNat)) (exec (.smad f) s)
    ∧ ScalOut s r f.d (if a.toInt < b.toInt then a else b) (exec (.smin 0 f) s)
    ∧ ScalOut s r f.d (if a.toNat < b.toNat then a else b) (exec (.smin 1 f) s)
    ∧ ScalOut s r f.d (if a.toInt < b.toInt then b else a) (exec (.smax 0 f) s)
    ∧ ScalOut s r f.d (if a.toNat < b.toNat then b else a) (exec (.smax 1 f) s)
    ∧ ScalOut s r u.d (BitVec.ofNat 64 v.toInt.natAbs) (exec (.sabs u) s)
    ∧ ScalOut s r u.d (BitVec.ofInt 64 (-v.toInt)) (exec (.sneg u) s)
    ∧ ScalOut s r f.d (a &&& b) (exec (.sand f) s)
    ∧ ScalOut s r f.d (a ||| b) (exec (.sor f) s)
    ∧ ScalOut s r f.d (a ^^^ b) (exec (.sxor f) s)
    ∧ ScalOut s r u.d (~~~v) (exec (.snot u) s)
    ∧ ScalOut s r f.d (BitVec.ofNat 64 (a.toNat * 2 ^ (b.toNat % 64))) (exec (.sshl f) s)
    ∧ ScalOut s r f.d (BitVec.ofNat 64 (a.toNat / 2 ^ (b.toNat % 64))) (exec (.sshr f) s)
    ∧ ScalOut s r f.d (BitVec.ofInt 64 (a.toInt / 2 ^ (b.toNat % 64))) (exec (.ssar f) s)
    ∧ ScalOut s r f.d (a.rotateLeft (b.toNat % 64)) (exec (.srot f) s)
    ∧ ScalOut s r u.d (BitVec.ofNat 64 ((List.range 64).filter fun i => v.getLsbD i).length) (exec (.spopc u) s)
    ∧ ScalOut s r u.d (BitVec.ofNat 64 (if v = 0 then 64 else 63 - v.toNat.log2)) (exec (.sclz u) s)
    ∧ ScalOut s r f.d (BitVec.ofInt 64 fld) (exec (.sbfe 0 f) s)
    ∧ ScalOut s r f.d (BitVec.ofInt 64 (if n ≠ 0 ∧ 2 ^ (n - 1) ≤ fld then fld - 2 ^ n else fld)) (exec (.sbfe 1 f) s)
    ∧ ScalOut s r f.d ((r.sc f.d &&& ~~~(m <<< p)) ||| ((a &&& m) <<< p)) (exec (.sbfi f) s)
    ∧ ScalOut s r u.d v (exec (.smov u) s)
    ∧ ScalOut s r f.d (if r.sx x ≠ 0 then a else b) (exec (.ssel f x) s)
    ∧ ScalOut s r f.d (if intCond c a b = true then 1 else 0) (exec (.scmp c f) s)
    ∧ ScalScalOut s r f.d (BitVec.ofNat 64 (a.toNat + b.toNat + ci)) x
        (if 2 ^ 64 ≤ a.toNat + b.toNat + ci then 1 else 0) (exec (.saddc f x y) s)
    ∧ ScalScalOut s r f.d (BitVec.ofInt 64 (a.toNat - b.toNat - ci)) x
        (if a.toNat < b.toNat + ci then 1 else 0) (exec (.ssubb f x y) s)
    ∧ ScalOut s r d (BitVec.ofInt 64 lit.toInt) (exec (.smovl d 0 lit) s)
    ∧ ScalOut s r d (BitVec.ofNat 64 (2 ^ 32 * lit.toNat + (r.sc d).toNat % 2 ^ 32)) (exec (.smovl d 1 lit) s)
    ∧ ScalOut s r d (BitVec.ofInt 64 ((r.sc e).toNat + lit.toInt)) (exec (.saddl d e lit) s)

/-! ### Floating point -/

/-- Every floating instruction completes with its operation on the exact values of its operands, rounded once in its mode,
with FTZ where it applies, in the active lanes of its destination, and changes nothing else (R69, R72, R174 to R182). -/
def Obligations.FloatingResults : Prop :=
  ∀ (s : State) (r : Run), s.running = some r →
    ∀ (m : BitVec 2) (c : BitVec 3) (f : F3) (u : U3) (lit : Word) (sat bf : Bit) (d a : Reg7) (dt st : BitVec 4),
    let x := fun l => f32.operand r.ftz (r.a32 f l).toNat
    let y := fun l => f32.operand r.ftz (r.b32 f l).toNat
    let z := fun l => f32.operand r.ftz (r.g.vreg f.d.toNat l).toNat
    let fp := fun v => BitVec.ofNat 32 (f32.result (rmode m) r.ftz v)
    let h := fun (w : Word) (e : Nat) => (pairFmt bf).operand r.ftz (w.toNat / 2 ^ (16 * e) % 2 ^ 16)
    let pair := fun (v : Nat → FVal) =>
      BitVec.ofNat 16 ((pairFmt bf).result .rne r.ftz (v 1)) ++ BitVec.ofNat 16 ((pairFmt bf).result .rne r.ftz (v 0))
    let src := fun l => if typeRegs st == 2 then (r.g.vreg2 a.toNat l).toNat else (r.g.vreg a.toNat l).toNat
    let cv := fun l => convert dt.toNat st.toNat (rmode m) (sat.toNat == 1) r.ftz (src l)
    VecOut s r f.d (fun l => fp ((x l).add (rmode m) (y l))) (exec (.vfadd m f) s)
    ∧ VecOut s r f.d (fun l => fp ((x l).add (rmode m) (y l).neg)) (exec (.vfsub m f) s)
    ∧ VecOut s r f.d (fun l => fp ((x l).mul (y l))) (exec (.vfmul m f) s)
    ∧ VecOut s r f.d (fun l => fp (FVal.fma (rmode m) (x l) (y l) (z l))) (exec (.vfma m f) s)
    ∧ VecOut s r f.d (fun l => fp (FVal.fma (rmode m) (x l) (y l) (f32.operand r.ftz lit.toNat))) (exec (.vfmal m f lit) s)
    ∧ VecOut s r f.d (fun l => fminmax32 false r.ftz (r.a32 f l) (r.b32 f l)) (exec (.vfmin f) s)
    ∧ VecOut s r f.d (fun l => fminmax32 true r.ftz (r.a32 f l) (r.b32 f l)) (exec (.vfmax f) s)
    ∧ (∃ v, ScalOut s r f.d v (exec (.vfcmp c f) s) ∧ IsMask r (fun l => FVal.cond c (x l) (y l)) v)
    ∧ VecOut s r u.d (fun l => fclass32 (r.src32 u.b u.sb l)) (exec (.vfclass u) s)
    ∧ VecOut s r u.d (fun l => fp ((f32.operand r.ftz (r.src32 u.b u.sb l).toNat).integral (rmode m))) (exec (.vfrnd m u) s)
    ∧ (typeRegs dt ≠ 2 → VecOut s r d (fun l => BitVec.ofNat 32 (cv l)) (exec (.vfcvt sat m d a dt st) s))
    ∧ (typeRegs dt = 2 → PairOut s r d (fun l => BitVec.ofNat 64 (cv l)) (exec (.vfcvt sat m d a dt st) s))
    ∧ VecOut s r f.d (fun l => fpack bf r.ftz (r.a32 f l) (r.b32 f l)) (exec (.vfpack bf f) s)
    ∧ VecOut s r f.d (fun l => pair fun e => (h (r.a32 f l) e).add .rne (h (r.b32 f l) e)) (exec (.vhadd2 bf f) s)
    ∧ VecOut s r f.d (fun l => pair fun e => (h (r.a32 f l) e).mul (h (r.b32 f l) e)) (exec (.vhmul2 bf f) s)
    ∧ VecOut s r f.d (fun l => pair fun e =>
        FVal.fma .rne (h (r.a32 f l) e) (h (r.b32 f l) e) (h (r.g.vreg f.d.toNat l) e)) (exec (.vhfma2 bf f) s)

/-- Rounding the value of an encoding gives the encoding back, in every format and mode: what a format can hold is exact
(R66, R67, R69). The conversions between the type codes, by the table of R75: between floats, where a NaN gives the canonical NaN
and an infinity is kept by a format that holds all of the source's values (R179), is the largest number under .sat, and otherwise
is an infinity or, in E4M3, the canonical NaN; from a float to an integer, rounded and clamped, a NaN to 0; from an integer to a
float, rounded; between integers, clamped under .sat, and otherwise the low bits, extended by the destination's type. The class bits
of vfclass (R177). -/
def Obligations.ExactValuesKept : Prop :=
  let floats := [(0, f32), (1, f16), (2, bf16), (3, e4m3), (4, e5m2)]
  let ints := [(5, 8, true), (6, 16, true), (7, 32, true), (8, 8, false), (9, 16, false), (10, 32, false), (11, 64, true),
    (12, 64, false)]
  let read := fun (w : Nat) (sg : Bool) (x : Nat) =>
    if sg = true ∧ 2 ^ (w - 1) ≤ x % 2 ^ w then ((x % 2 ^ w : Nat) : Int) - 2 ^ w else ((x % 2 ^ w : Nat) : Int)
  let clamp := fun (w : Nat) (sg : Bool) (x : Int) =>
    if sg then max (-(2 ^ (w - 1))) (min x (2 ^ (w - 1) - 1)) else max 0 (min x (2 ^ w - 1))
  (∀ f ∈ floats, ∀ (m : RMode) (n : Nat), n < 2 ^ f.2.width → f.2.value n ≠ .nan → f.2.round m false (f.2.value n) = n)
  ∧ (∀ p ∈ floats, ∀ q ∈ floats, ∀ (m : RMode) (sat : Bool) (x : Nat), x < 2 ^ p.2.width →
      let wide := p.1 = q.1 ∨ q.1 = 0 ∨ ((q.1 = 1 ∨ q.1 = 2) ∧ (p.1 = 3 ∨ p.1 = 4))
      let y := convert q.1 p.1 m sat false x
      (p.2.value x = .nan → y = q.2.nan)
      ∧ (∀ n, p.2.value x = .inf n →
          (wide ∨ sat = false → y = match q.2.inf with
            | some i => q.2.signBit n + i
            | none => q.2.nan)
          ∧ (¬wide → sat = true → y = q.2.signBit n + q.2.maxField))
      ∧ (∀ n k e, p.2.value x = .fin n k e →
          (wide → y = q.2.round m false (.fin n k e)) ∧ (¬wide → y = q.2.round m sat (.fin n k e))))
  ∧ (∀ p ∈ floats, ∀ q ∈ ints, ∀ (m : RMode) (sat : Bool) (x : Nat), x < 2 ^ p.2.width →
      let y : Int := convert q.1 p.1 m sat false x
      (p.2.value x = .nan → y = 0)
      ∧ (∀ n, p.2.value x = .inf n →
          y = clamp q.2.1 q.2.2 (if n = true then -(2 ^ 64) else 2 ^ 64) % 2 ^ 64)
      ∧ (∀ n k e, p.2.value x = .fin n k e →
          y = clamp q.2.1 q.2.2 (if n = true then -(roundInt m n k e : Int) else (roundInt m n k e : Int)) % 2 ^ 64))
  ∧ (∀ p ∈ ints, ∀ q ∈ floats, ∀ (m : RMode) (sat : Bool) (x : Nat),
      let v := read p.2.1 p.2.2 x
      convert q.1 p.1 m sat false x = q.2.round m sat (.fin (decide (v < 0)) v.natAbs 0))
  ∧ (∀ p ∈ ints, ∀ q ∈ ints, ∀ (m : RMode) (x : Nat),
      ((convert q.1 p.1 m true false x : Nat) : Int) = clamp q.2.1 q.2.2 (read p.2.1 p.2.2 x) % 2 ^ 64
      ∧ ((convert q.1 p.1 m false false x : Nat) : Int) =
          read q.2.1 q.2.2 (read p.2.1 q.2.2 x % 2 ^ 64).toNat % 2 ^ 64)
  ∧ (∀ b : Word,
      (f32.value b.toNat = .nan → fclass32 b = 0x100)
      ∧ (∀ n, f32.value b.toNat = .inf n → fclass32 b = if n = true then 0x1 else 0x80)
      ∧ ∀ n k e, f32.value b.toNat = .fin n k e → fclass32 b =
          if k = 0 then (if n = true then 0x8 else 0x10)
          else if k < 2 ^ 23 then (if n = true then 0x4 else 0x20)
          else if n = true then 0x2 else 0x40)

/-- A rounded finite value never passes the largest finite number but as an infinity, or as the canonical NaN in E4M3, and
with saturation it never does: then the result is a finite encoding (R70, R71). minimumNumber and maximumNumber: with one NaN
the other operand, with two the canonical NaN, -0 below +0, else the smaller or the larger (R73, R175). -/
def Obligations.NumbersOutOfRange : Prop :=
  (∀ f ∈ [f32, f16, bf16, e4m3, e5m2], ∀ (m : RMode) (neg : Bool) (k : Nat) (e : Int),
    f.round m true (.fin neg k e) % 2 ^ (f.ebits + f.frac) ≤ f.maxField
    ∧ (f.maxField < f.round m false (.fin neg k e) % 2 ^ (f.ebits + f.frac) →
        f.round m false (.fin neg k e) = match f.inf with
          | some i => f.signBit neg + i
          | none => f.nan)
    ∧ f.round m true (.inf neg) = f.signBit neg + f.maxField
    ∧ f.round m false .nan = f.nan ∧ f.round m true .nan = f.nan)
  ∧ (∀ (a b : Word),
    let x := f32.value a.toNat
    let y := f32.value b.toNat
    (x = .nan → y ≠ .nan → fminmax32 false false a b = b ∧ fminmax32 true false a b = b)
    ∧ (x ≠ .nan → y = .nan → fminmax32 false false a b = a ∧ fminmax32 true false a b = a)
    ∧ (x = .nan → y = .nan → fminmax32 false false a b = 0x7FC00000 ∧ fminmax32 true false a b = 0x7FC00000)
    ∧ (x.lt y = true → fminmax32 false false a b = a ∧ fminmax32 true false a b = b)
    ∧ (y.lt x = true → fminmax32 false false a b = b ∧ fminmax32 true false a b = a)
    ∧ (∀ c d : Word, c ∈ [0, 0x80000000] → d ∈ [0, 0x80000000] →
        fminmax32 false false c d = (if c = 0 then d else c) ∧ fminmax32 true false c d = (if c = 0 then c else d)))

/-! ### Special function and cross-lane -/

/-- An SFU instruction whose counter is free completes by issuing its results for the active lanes, with its counter one
higher (R183). A NaN gives the canonical NaN in every function, and each special input in the table of R184 gives what stands
there; 2^x is exact at an integer with a normal result, and log2 at a power of two (R184). -/
def Obligations.SpecialFunctions : Prop :=
  (∀ (s : State) (r : Run), s.running = some r → ∀ (d a : Reg7) (dc : DcField), CounterFree r dc →
    let out := fun k => (lanesOf r.act).map fun l => (⟨l, d.toNat, [sfu k (r.g.vreg a.toNat l)]⟩ : LaneOut)
    Issues s r .sfu dc (out 0) [] (exec (.vex2 d a dc) s) ∧ Issues s r .sfu dc (out 1) [] (exec (.vlg2 d a dc) s)
    ∧ Issues s r .sfu dc (out 2) [] (exec (.vrcp d a dc) s) ∧ Issues s r .sfu dc (out 3) [] (exec (.vrsq d a dc) s)
    ∧ Issues s r .sfu dc (out 4) [] (exec (.vsqrt d a dc) s) ∧ Issues s r .sfu dc (out 5) [] (exec (.vsint d a dc) s)
    ∧ Issues s r .sfu dc (out 6) [] (exec (.vcost d a dc) s) ∧ Issues s r .sfu dc (out 7) [] (exec (.vtanh d a dc) s))
  ∧ ((∀ k x, k < 8 → f32.value x.toNat = .nan → sfu k x = 0x7FC00000)
  ∧ sfu 0 0 = 0x3F800000 ∧ sfu 0 0x80000000 = 0x3F800000 ∧ sfu 0 0xFF800000 = 0 ∧ sfu 0 0x7F800000 = 0x7F800000
  ∧ sfu 1 0 = 0xFF800000 ∧ sfu 1 0x80000000 = 0xFF800000 ∧ sfu 1 0x7F800000 = 0x7F800000 ∧ sfu 1 0xFF800000 = 0x7FC00000
  ∧ sfu 1 0x3F800000 = 0
  ∧ sfu 2 0 = 0x7F800000 ∧ sfu 2 0x80000000 = 0xFF800000 ∧ sfu 2 0x7F800000 = 0 ∧ sfu 2 0xFF800000 = 0x80000000
  ∧ sfu 3 0 = 0x7F800000 ∧ sfu 3 0x80000000 = 0xFF800000 ∧ sfu 3 0x7F800000 = 0
  ∧ sfu 4 0 = 0 ∧ sfu 4 0x80000000 = 0x80000000 ∧ sfu 4 0x7F800000 = 0x7F800000
  ∧ (∀ (k : Nat) (x : Word), k = 1 ∨ k = 3 ∨ k = 4 → x.toNat ≤ 0xFF800000 → 0x80000000 < x.toNat → sfu k x = 0x7FC00000)
  ∧ sfu 5 0 = 0 ∧ sfu 5 0x80000000 = 0x80000000 ∧ sfu 5 0x3E800000 = 0x3F800000 ∧ sfu 5 0x3F400000 = 0xBF800000
  ∧ sfu 6 0 = 0x3F800000 ∧ sfu 6 0x80000000 = 0x3F800000 ∧ sfu 6 0x3F000000 = 0xBF800000 ∧ sfu 6 0x3E800000 = 0
  ∧ (∀ k, k = 5 ∨ k = 6 → sfu k 0x7F800000 = 0x7FC00000 ∧ sfu k 0xFF800000 = 0x7FC00000)
  ∧ sfu 7 0 = 0 ∧ sfu 7 0x80000000 = 0x80000000 ∧ sfu 7 0x41100000 = 0x3F800000 ∧ sfu 7 0xC1100000 = 0xBF800000)
  ∧ (∀ x : Word,
    (0x43000000 ≤ x.toNat → x.toNat ≤ 0x7F800000 → sfu 0 x = 0x7F800000)
    ∧ (0xC3160000 ≤ x.toNat → x.toNat ≤ 0xFF800000 → sfu 0 x = 0)
    ∧ (0x41100000 ≤ x.toNat % 2 ^ 31 → x.toNat % 2 ^ 31 ≤ 0x7F800000 →
        sfu 7 x = if x.toNat < 2 ^ 31 then 0x3F800000 else 0xBF800000))
  ∧ (∀ (x : Word) (neg : Bool) (m : Nat) (e : Int), f32.value x.toNat = .fin neg m e → m ≠ 0 →
    -- x is q quarters of a turn, in magnitude
    (∀ q, m * 2 ^ (e + 149).toNat = q * 2 ^ 147 →
      let turn := if neg then (4 - q % 4) % 4 else q % 4
      sfu 5 x = (if turn = 1 then 0x3F800000 else if turn = 3 then 0xBF800000 else 0)
      ∧ sfu 6 x = (if turn = 0 then 0x3F800000 else if turn = 2 then 0xBF800000 else 0))
    -- x is the integer k, in magnitude
    ∧ (∀ k, m * 2 ^ (e + 149).toNat = k * 2 ^ 149 →
      (neg = false → k ≤ 127 → sfu 0 x = BitVec.ofNat 32 ((127 + k) * 2 ^ 23))
      ∧ (neg = true → k ≤ 126 → sfu 0 x = BitVec.ofNat 32 ((127 - k) * 2 ^ 23)))
    -- x is the power of two with exponent k + e
    ∧ (∀ k : Nat, neg = false → m = 2 ^ k →
      sfu 1 x = BitVec.ofNat 32 (f32.round .rne false (.fin (decide ((k : Int) + e < 0)) ((k : Int) + e).natAbs 0))))

/-- A cross-lane instruction whose counter is free completes by issuing its results, read across the lanes at issue, with its
counter one higher (R185 to R191). A reduction folds the active lanes in ascending order (R189), by the operations and from the
identities of the table of R188. -/
def Obligations.CrossLaneIssue : Prop :=
  (∀ (x y : Word) (ftz : Bool),
    redOp 0 ftz x y = BitVec.ofNat 32 (x.toNat + y.toNat)
    ∧ redOp 1 ftz x y = (if x.toInt < y.toInt then x else y) ∧ redOp 2 ftz x y = (if x.toNat < y.toNat then x else y)
    ∧ redOp 3 ftz x y = (if x.toInt < y.toInt then y else x) ∧ redOp 4 ftz x y = (if x.toNat < y.toNat then y else x)
    ∧ redOp 5 ftz x y = x &&& y ∧ redOp 6 ftz x y = x ||| y ∧ redOp 7 ftz x y = x ^^^ y
    ∧ redOp 8 ftz x y = BitVec.ofNat 32 (f32.result .rne ftz ((f32.operand ftz x.toNat).add .rne (f32.operand ftz y.toNat)))
    ∧ redOp 9 ftz x y = fminmax32 false ftz x y ∧ redOp 10 ftz x y = fminmax32 true ftz x y)
  ∧ (List.range 11).map redId = [0, 0x7FFFFFFF, 0xFFFFFFFF, 0x80000000, 0, 0xFFFFFFFF, 0, 0, 0x80000000, 0x7FC00000, 0x7FC00000]
  ∧ ∀ (s : State) (r : Run), s.running = some r →
    ∀ (f : F3) (d a : Reg7) (dc : DcField) (seg : BitVec 3) (op : BitVec 4) (w : Bit) (h : HammF) (sm sc : SReg),
    CounterFree r dc → CounterFree r h.dc →
    let ls := lanesOf r.act
    let n := 2 ^ seg.toNat
    let base := fun l => l - l % n
    let take := fun l j => (⟨l, f.d.toNat, [r.g.vreg f.a.toNat j]⟩ : LaneOut)
    let i32 := fun l => (r.b32 f l).toNat
    let cnt := if f.sb = 1 then (r.sc f.b).toNat % 2 ^ 32 else f.b.toNat
    let sl : Int := if f.sb = 1 then (BitVec.ofNat 32 (r.sc f.b).toNat).toInt else f.b.toInt
    let ax := fun l => if f.sb = 1 then (l % n &&& (r.sc f.b).toNat % 32) ^^^ (r.sc f.b).toNat / 256 % 32
      else (l % n &&& 31) ^^^ f.b.toNat
    let p := fun l => r.g.vreg a.toNat l ≠ 0
    let vs := ls.map (r.g.vreg a.toNat)
    let fold := fun (v : List Word) => match v with
      | [] => redId op.toNat
      | y :: ys => ys.foldl (redOp op.toNat r.ftz) y
    let dist := fun l => if w = 1 then popCount (r.g.vreg2 h.a.toNat l ^^^ r.sx h.sq)
      else popCount (r.g.vreg h.a.toNat l ^^^ BitVec.ofNat 32 (r.sx h.sq).toNat)
    let m := BitVec.ofNat 32 (r.sx sm).toNat &&& r.act
    Issues s r .crosslane dc (ls.map fun l => take l (base l + i32 l % n)) [] (exec (.vshflSel f dc seg) s)
    ∧ Issues s r .crosslane dc (ls.map fun l => take l (base l + (l % n + cnt) % n)) [] (exec (.vshflRol f dc seg) s)
    ∧ Issues s r .crosslane dc
        ((ls.filter fun l => decide (0 ≤ ((l % n : Nat) : Int) + sl ∧ ((l % n : Nat) : Int) + sl < (n : Int))).map fun l =>
          take l ((l : Int) + sl).toNat) []
        (exec (.vshflSlide f dc seg) s)
    ∧ Issues s r .crosslane dc (ls.map fun l => take l (base l + ax l % n)) [] (exec (.vshflAx f dc seg) s)
    ∧ Issues s r .crosslane dc [] [(d.toNat, if ∃ l ∈ ls, p l then 1 else 0)] (exec (.vvoteAny d a dc) s)
    ∧ Issues s r .crosslane dc [] [(d.toNat, if ∀ l ∈ ls, p l then 1 else 0)] (exec (.vvoteAll d a dc) s)
    ∧ (∃ v, IsMask r (fun l => decide (p l)) v ∧ Issues s r .crosslane dc [] [(d.toNat, v)] (exec (.vvoteBallot d a dc) s))
    ∧ Issues s r .crosslane dc [] [(d.toNat, BitVec.ofNat 64 (fold vs).toNat)] (exec (.vred d a op 0 dc) s)
    ∧ Issues s r .crosslane dc (ls.map fun l => ⟨l, d.toNat, [fold vs]⟩) [] (exec (.vred d a op 1 dc) s)
    ∧ Issues s r .crosslane dc (ls.zipIdx.map fun e => ⟨e.1, d.toNat, [fold (vs.take (e.2 + 1))]⟩) []
        (exec (.vscan d a op 0 dc) s)
    ∧ Issues s r .crosslane dc (ls.zipIdx.map fun e => ⟨e.1, d.toNat, [fold (vs.take e.2)]⟩) [] (exec (.vscan d a op 1 dc) s)
    ∧ (∃ v, IsMask r (fun l => decide (dist l ≤ h.rad.toNat)) v
        ∧ Issues s r .crosslane h.dc
            (if h.wd = 1 then ls.map fun l =>
                ⟨l, h.ve.toNat, if w = 1 then [BitVec.ofNat 32 (dist l), 0] else [BitVec.ofNat 32 (dist l)]⟩ else [])
            [(h.sd.toNat, v)] (exec (.vhamm w h) s))
    ∧ Issues s r .crosslane dc
        (ls.map fun l => ⟨l, d.toNat, [BitVec.ofNat 32 ((lanesOf m).filter fun j => j < l).length]⟩)
        [(sc.toNat, BitVec.ofNat 64 (lanesOf m).length)] (exec (.vlanes d sm sc dc) s)

/-- SFU_RESULT and CROSSLANE_RESULT write the results of the lanes they deliver, but in lanes that have faulted since; with
the last lane the scalar results are written, the operation is over and its counter is one lower (R34, R35, R144). -/
def Obligations.ResultDelivery : Prop :=
  ∀ (s : State) (id : Nat) (o : Op) (g : Group) (m : LaneMask) (ls : List Nat) (d : Nat) (f : Nat → Word),
    dget s.flight id = some o → dget s.groups o.group = some g → o.work = .none → ls.Nodup → (∀ l ∈ ls, l < 32) →
    o.vout = ls.map (fun l => ⟨l, d, [f l]⟩) → ∀ i, (o.fam = .sfu ∧ i = Instr.sfuResult id m) ∨
      (o.fam = .crosslane ∧ i = Instr.crosslaneResult id m) →
    ∃ t g', exec i s = .next t ∧ t.mem = s.mem ∧ dget t.groups o.group = some g'
      ∧ (∀ n l, l < 32 → g'.vreg n l =
          if n = d ∧ l ∈ ls ∧ m.getLsbD l = true ∧ g.faulted.getLsbD l = false then f l else g.vreg n l)
      ∧ (if ∀ l ∈ ls, m.getLsbD l = true then
            CountedDown t id o g ∧ g'.s = (o.sout.foldl (fun x e => x.setS e.1 e.2) g).s
          else g'.s = g.s ∧ g'.dc = g.dc
            ∧ dget t.flight id = some { o with vout := o.vout.filter fun x => !m.getLsbD x.lane })

/-! ### Memory -/

/-- The effective address of an FM instruction: the scalar base, the lane's index, sign-extended and scaled, unless it names
none, and the signed offset, modulo 2^64 (R37). -/
def Obligations.EffectiveAddress : Prop :=
  ∀ (r : Run) (m : Fm) (l : Nat),
    (r.ea m l).toNat = (((r.g.sreg m.sbase.toNat).toNat
      + (if m.nx = 1 then 0 else (r.g.vreg m.vidx.toNat l).toInt * 2 ^ m.scale.toNat) + m.off.toInt : Int) % 2 ^ 64).toNat

/-- Every FM instruction whose lanes all may access completes by issuing one access for each lane, two for 16 bytes, with the
data of its registers, at the lane's effective address (R37, R38, R192 to R204, R208, R209). -/
def Obligations.MemoryIssue : Prop :=
  ∀ (s : State) (r : Run), s.running = some r → r.g.st = .live → r.act ≠ 0 → ∀ (m : Fm) (k : BitVec 4), Countable r m.dc →
    let n := sizeBytes m.size
    let ls := lanesOf r.act
    let ea := fun l => (r.ea m l).toNat
    let one := (r.sx m.sbase + m.off.signExtend 64).toNat
    let global := fun a => ∀ l ∈ ls, ea l % n = 0 ∧ OpenPage s r.t a (ea l)
    let window := ∀ l ∈ ls, ea l % n = 0 ∧ ea l + n ≤ r.t.wsize
    let remote := ∀ l ∈ ls, ea l % n = 0 ∧ ea l < 2 ^ 27 ∧ ea l % 2 ^ 21 + n ≤ 1572864
      ∧ s.windowAt r.t.asid (r.t.core / 64 * 64 + ea l / 2 ^ 21) (ea l % 2 ^ 21) n = true
    let reads := ls.flatMap fun l => laneParts n l (ea l) []
    let writes := ls.flatMap fun l => laneParts n l (ea l) (r.g.laneBytes m.d.toNat l n)
    let both := ls.flatMap fun l => laneParts n l (ea l) (r.g.laneBytes m.d.toNat l (n * 2))
    (global .read → IssuesMem s r m .load .global reads (exec (.ldg m) s))
    ∧ (global .write → IssuesMem s r m .store .global writes (exec (.stg m) s))
    ∧ (one % n = 0 → OpenPage s r.t .read one →
        IssuesMem s r m .load .global ((laneParts n 0 one []).take 1) (exec (.ldgu m) s))
    ∧ (window → IssuesMem s r m .load .window reads (exec (.lds m) s))
    ∧ (window → IssuesMem s r m .store .window writes (exec (.sts m) s))
    ∧ (remote → IssuesMem s r m .load .remote reads (exec (.ldx m) s))
    ∧ (remote → IssuesMem s r m .store .remote writes (exec (.stx m) s))
    ∧ ((∀ l ∈ ls, s.accessCause r.t.asid r.t.mode .rot (ea l) = 0 ∧ s.linkDown r.t.asid (ea l) = false) →
        IssuesMem s r m .rot .global (ls.map fun l => (l, ea l, 4, [])) (exec (.ldrot m) s))
    ∧ (global .write → r.t.versioned = false → IssuesMem s r m .storeNt .global writes (exec (.stnt m) s))
    ∧ (global .read → IssuesMem s r m .pref .global reads (exec (.pref m) s))
    ∧ (global .atomic → IssuesMem s r m (.atomic k.toNat) .global (if k = 10 then both else writes) (exec (.atomg k m) s))
    ∧ (global .atomic → IssuesMem s r m (.atomic 10) .global both (exec (.casg m) s))
    ∧ (window → IssuesMem s r m (.atomic k.toNat) .window (if k = 10 then both else writes) (exec (.atoms k m) s))
    ∧ (window → IssuesMem s r m (.atomic 10) .window both (exec (.cass m) s))
    ∧ (remote → IssuesMem s r m (.atomic k.toNat) .remote (if k = 10 then both else writes) (exec (.atomx k m) s))
    ∧ (remote → IssuesMem s r m (.atomic 10) .remote both (exec (.atomxCas m) s))

/-- Lanes of a window store that are misaligned or pass the end of the window leave the split for the faulted-lane set, with
MISALIGNED or SCRATCH_BOUNDS; the other lanes go on (R38, R144, R194). -/
def Obligations.LanesThatFault : Prop :=
  ∀ (s : State) (r : Run) (m : Fm), s.running = some r → Countable r m.dc → r.g.saved = 0 → r.g.faulted &&& r.act = 0 →
    let n := sizeBytes m.size
    let ea := fun l => (r.ea m l).toNat
    let bad := fun l => decide (ea l % n ≠ 0 ∨ r.t.wsize < ea l + n)
    (∃ l, r.act.getLsbD l = true ∧ bad l = false) →
    ∃ t g, exec (.sts m) s = .next t ∧ t.mem = s.mem ∧ dget t.groups r.gid = some g ∧ g.v = r.g.v ∧ g.s = r.g.s
      ∧ (∀ l, (g.split r.slot).mask.getLsbD l = (r.act.getLsbD l && !bad l))
      ∧ (∀ l, g.faulted.getLsbD l = (r.g.faulted.getLsbD l || (r.act.getLsbD l && bad l)))
      ∧ ∀ l, r.act.getLsbD l = true → bad l = true → ∃ c ∈ g.causes, c.lane = l ∧ c.va = ea l
          ∧ c.cause = if ea l % n ≠ 0 then 9 else 8

/-- Where every active lane of a load, a store or an atomic meets a page that is not present, the split parks at the instruction,
to replay it, and waits for exactly the pages that its lanes reach; no lane faults, and nothing is written (R143). -/
def Obligations.AbsentPagesPark : Prop :=
  ∀ (s : State) (r : Run) (m : Fm) (k : BitVec 4), s.running = some r → Countable r m.dc → r.act ≠ 0 → r.g.saved = 0 →
    r.sp.doom = [] → (s.core r.t.core).sieve = [] →
    let ea := fun l => (r.ea m l).toNat
    let gone := fun a => ∀ l ∈ lanesOf r.act, ea l % sizeBytes m.size = 0 ∧ s.causeAt r.t.asid r.t.mode (ea l) a = 1
    let parks := fun o => ∃ t g, o = Host.Outcome.next t ∧ t.mem = s.mem ∧ t.flight = s.flight
      ∧ dget t.groups r.gid = some g ∧ g.v = r.g.v ∧ g.s = r.g.s ∧ g.dc = r.g.dc ∧ g.faulted = r.g.faulted
      ∧ (g.split r.slot).st = .parked ∧ (g.split r.slot).mask = r.act
      ∧ (g.split r.slot).pc = (r.g.split r.slot).pc ∧ (g.split r.slot).hdr = (r.g.split r.slot).hdr
      ∧ (g.split r.slot).words = (r.g.split r.slot).words ∧ (g.split r.slot).nxt = r.sp.pos
      ∧ ∀ p, p ∈ (g.split r.slot).pages ↔
          ∃ l ∈ lanesOf r.act, ∃ x b q, s.pageAt r.t.asid (ea l) = some (x, b, q) ∧ p = pageId x b
    (gone .read → parks (exec (.ldg m) s))
    ∧ (gone .write → parks (exec (.stg m) s))
    ∧ (gone .atomic → parks (exec (.atomg k m) s))

/-- drain, cinv, seal and unseal complete by issuing their operations: drain with the non-temporal stores of the group it waits
for, seal and unseal with the region; cinv has dropped the lines of its range from the L1 (R203, R205 to R207). That its range
takes in the lines of an attached shared address space too is the model's reading (log 23). -/
def Obligations.OrderingIssue : Prop :=
  ∀ (s : State) (r : Run), s.running = some r → ∀ (dc : DcField) (a b : SReg) (f : Ch3),
    Countable r dc → Countable r f.dc →
    IssuesOp s r dc (fun o => ∃ ops, o.work = .drain ops ∧ ∀ id op w, dget s.flight id = some op → op.work = .mem w →
        op.group = r.gid → w.kind = .storeNt → id ∈ ops) (exec (.drain dc) s)
    ∧ IssuesOp s r dc (fun o => o.work = .none ∧ o.vout = [] ∧ o.sout = []) (exec (.cinv a b 0 dc) s)
    ∧ IssuesOp s r dc (fun o => o.work = .none ∧ o.vout = [] ∧ o.sout = []) (exec (.cinv a b 1 dc) s)
    ∧ (∀ t, exec (.cinv a b 1 dc) s = .next t → ∀ l ∈ (t.core r.t.core).l1, l.asid ≠ r.t.asid)
    ∧ (∀ t, exec (.cinv a b 0 dc) s = .next t → (r.sx a).toNat + (r.sx b).toNat ≤ 2 ^ 64 → ∀ l ∈ (t.core r.t.core).l1,
        l.asid = s.spaceOf r.t.asid l.va →
        ¬((r.sx a).toNat < l.va + 64 ∧ l.va < (r.sx a).toNat + (r.sx b).toNat ∧ r.sx b ≠ 0))
    ∧ IssuesOp s r f.dc (fun o => o.work = .seal false r.t.forming (r.sx f.a).toNat (r.sx f.b).toNat ∧ o.sout = [(f.d.toNat, 0)])
        (exec (.seal f) s)
    ∧ IssuesOp s r f.dc (fun o => o.work = .seal true r.t.forming (r.sx f.a).toNat (r.sx f.b).toNat ∧ o.sout = [(f.d.toNat, 0)])
        (exec (.unseal f) s)

/-- DRAIN_COMPLETE when every store it waited for is performed; SEAL_COMPLETE and UNSEAL_COMPLETE with their status: a region
that is no whole number of pages of 4 KiB gives 1 and changes nothing (R203, R206, R207). That this status comes before every other
one that applies is the model's order of the checks (log 25). -/
def Obligations.OrderingComplete : Prop :=
  ∀ (s : State) (id : Nat) (o : Op) (g : Group) (t : Team), dget s.flight id = some o → dget s.groups o.group = some g →
    dget s.teams o.team = some t →
    (∀ ops, o.work = .drain ops → (∀ i ∈ ops, s.performed i = true) →
      ∃ t, exec (.drainComplete id) s = .next t ∧ t.mem = s.mem ∧ CountedDown t id o g)
    ∧ (∀ u forming base size d, o.work = .seal u forming base size → o.sout = [(d, 0)] →
        (∀ i ∈ o.waits, s.performed i = true) → base % 4096 ≠ 0 ∨ size % 4096 ≠ 0 ∨ size = 0 →
        ∃ t g', exec (if u then .unsealComplete id else .sealComplete id) s = .next t ∧ t.mem = s.mem ∧ t.ctxs = s.ctxs
          ∧ CountedDown t id o g ∧ dget t.groups o.group = some g' ∧ g'.sreg d = 1)
    ∧ (∀ u forming base size d, o.work = .seal u forming base size → o.sout = [(d, 0)] →
        (∀ i ∈ o.waits, s.performed i = true) → s.sealStatus t u forming base size = 0 → (∀ q ∈ s.pagesIn t.asid base size, q.2.2.moving = false) →
        s.versionHolds (s.pagesIn t.asid base size) = false →
        ∃ t' g', exec (if u then .unsealComplete id else .sealComplete id) s = .next t' ∧ t'.mem = s.mem
          ∧ CountedDown t' id o g ∧ dget t'.groups o.group = some g' ∧ g'.sreg d = 0
          ∧ ∀ q ∈ s.pagesIn t.asid base size, ∀ c, dget t'.ctxs q.1 = some c → ∀ p, dget c.pages q.2.1 = some p →
              p.st = if u then .resident else .sealed)

/-- HOME_SLICE_ACCESS on a RESIDENT page by a team that is not VERSIONED: a store writes its bytes and no other, a load takes
the bytes as they stand and memory is as before, an atomic does both in one step with the value of its operation, and a
compare-and-swap writes where the value compares equal (R198, R202, R208, R209, R228). -/
def Obligations.AccessAtSlice : Prop :=
  ∀ (s : State) (id i : Nat) (o : Op) (m : MemWork) (u : Access) (t : Team) (x b : Nat) (p : Page),
    dget s.flight id = some o → o.work = .mem m → m.units[i]? = some u → dget s.teams o.team = some t →
    t.versioned = false → t.ver.sectors = [] → m.space = .global → u.st = .pending → u.req = none →
    s.mayPerform id o m i u = true → s.pageAt t.asid u.addr = some (x, b, p) → p.st = .resident →
    (∀ k < u.n, s.pageAt t.asid (u.addr + k) = some (x, b, p)) → s.causeAt t.asid .normal u.addr m.kind.acc = 0 →
    let key := p.frame + (u.addr - b)
    let old := s.mem.readN key u.n
    let done := fun (s' : State) got => ∃ o' m', dget s'.flight id = some o' ∧ o'.work = .mem m'
      ∧ m'.units[i]? = some { u with st := .done, got := got }
    (m.kind = .store ∨ m.kind = .storeNt →
      ∃ s', exec (.homeSliceAccess id i) s = .next s' ∧ StoresAt s s' key u.data ∧ done s' [])
    ∧ (m.kind = .load → ∃ s', exec (.homeSliceAccess id i) s = .next s' ∧ SameMemory s s' ∧ done s' old)
    ∧ (∀ k, k < 10 → m.kind = .atomic k → ∃ s', exec (.homeSliceAccess id i) s = .next s' ∧ done s' old
        ∧ StoresAt s s' key (leBytes u.n (atomNew k u.n (leNat old) (leNat (u.data.take u.n)) (leNat (u.data.drop u.n)))))
    ∧ (m.kind = .atomic 10 → leNat old = leNat (u.data.take u.n) → ∃ s', exec (.homeSliceAccess id i) s = .next s'
        ∧ done s' old ∧ StoresAt s s' key (leBytes u.n (leNat (u.data.drop u.n))))
    ∧ (m.kind = .atomic 10 → leNat old ≠ leNat (u.data.take u.n) → ∃ s', exec (.homeSliceAccess id i) s = .next s'
        ∧ done s' old ∧ SameMemory s s')

/-- A store of a VERSIONED team to a sector its version holds goes into the version: memory is as before, and the team, and it
alone, reads the new bytes (R197, R361). -/
def Obligations.StoreIntoVersion : Prop :=
  ∀ (s : State) (id i : Nat) (o : Op) (m : MemWork) (u : Access) (t : Team) (x b : Nat) (p : Page),
    dget s.flight id = some o → o.work = .mem m → m.units[i]? = some u → dget s.teams o.team = some t →
    t.versioned = true → t.ver.irrevocable = false → m.kind = .store → m.space = .global → u.st = .pending →
    u.req = none → s.mayPerform id o m i u = true → s.pageAt t.asid u.addr = some (x, b, p) → p.st = .resident →
    s.causeAt t.asid .version u.addr .write = 0 → s.regionAt t.asid u.addr = none →
    s.spaceOf t.asid u.addr = x → t.ver.holds x u.addr = true → u.data.length = u.n → u.addr % 64 + u.n ≤ 64 →
    ∃ s' t', exec (.homeSliceAccess id i) s = .next s' ∧ s'.mem = s.mem ∧ dget s'.teams o.team = some t'
      ∧ ∀ a, s'.tbyte t' x a = if u.addr ≤ a ∧ a < u.addr + u.n then u.data.getD (a - u.addr) 0 else s.tbyte t x a

/-- MEMORY_ACCESS_COMPLETE of a load whose accesses are performed writes each lane's registers with its bytes, little-endian,
and no other register; of a store, no register; memory is as before, and the counter is one lower (R34, R193, R198). -/
def Obligations.LoadsComplete : Prop :=
  ∀ (s : State) (id : Nat) (o : Op) (m : MemWork) (g : Group) (t : Team),
    dget s.flight id = some o → o.work = .mem m → o.fam = .memory → m.space = .global → m.uniform = false →
    dget s.groups o.group = some g → dget s.teams o.team = some t → o.sout = [] → o.vout = [] →
    (∀ u ∈ m.units, u.st = .done ∧ u.lane < 32) →
    ∃ s' g', exec (.memoryAccessComplete id 0xFFFFFFFF) s = .next s' ∧ s'.mem = s.mem ∧ CountedDown s' id o g
      ∧ dget s'.groups o.group = some g' ∧ g'.s = g.s
      ∧ ∀ n l, l < 32 → g'.vreg n l =
          let w := loadWords m.size (m.laneGot l)
          if m.ret = true ∧ (∃ u ∈ m.units, u.lane = l) ∧ g.faulted.getLsbD l = false ∧ m.d ≤ n ∧ n < m.d + w.length
          then w.getD (n - m.d) 0 else g.vreg n l

/-- The words a load delivers by size: zero-extended bytes and halves, words, pairs, quads, and signed bytes and halves
(R193), and the scalar that ldgu delivers (R199). The value an atomic writes, by its sub-operation, on 4 bytes and on 8: add, minimum
and maximum signed and unsigned, and, or, xor, exchange; and the float addition on 4 bytes, rounded to nearest even without flush
to zero (R208). -/
def Obligations.AccessValues : Prop :=
  (∀ (b0 b1 b2 b3 b4 b5 b6 b7 : Byte),
    loadWords 0 [b0] = [b0.setWidth 32] ∧ loadWords 1 [b0, b1] = [(b1 ++ b0).setWidth 32]
    ∧ loadWords 2 [b0, b1, b2, b3] = [b3 ++ b2 ++ b1 ++ b0]
    ∧ loadWords 3 [b0, b1, b2, b3, b4, b5, b6, b7] = [b3 ++ b2 ++ b1 ++ b0, b7 ++ b6 ++ b5 ++ b4]
    ∧ loadWords 5 [b0] = [b0.signExtend 32] ∧ loadWords 6 [b0, b1] = [(b1 ++ b0).signExtend 32]
    ∧ loadScalar 0 [b0] = b0.setWidth 64 ∧ loadScalar 1 [b0, b1] = (b1 ++ b0).setWidth 64
    ∧ loadScalar 2 [b0, b1, b2, b3] = (b3 ++ b2 ++ b1 ++ b0).setWidth 64
    ∧ loadScalar 3 [b0, b1, b2, b3, b4, b5, b6, b7] = b7 ++ b6 ++ b5 ++ b4 ++ b3 ++ b2 ++ b1 ++ b0
    ∧ loadScalar 5 [b0] = b0.signExtend 64 ∧ loadScalar 6 [b0, b1] = (b1 ++ b0).signExtend 64
    ∧ ∀ (c0 c1 c2 c3 c4 c5 c6 c7 : Byte),
        loadWords 4 [b0, b1, b2, b3, b4, b5, b6, b7, c0, c1, c2, c3, c4, c5, c6, c7] =
          [b3 ++ b2 ++ b1 ++ b0, b7 ++ b6 ++ b5 ++ b4, c3 ++ c2 ++ c1 ++ c0, c7 ++ c6 ++ c5 ++ c4])
  ∧ (∀ (w : Nat), w = 4 ∨ w = 8 → ∀ (a b : BitVec (8 * w)) (y : Nat),
    atomNew 0 w a.toNat b.toNat y = (a + b).toNat
    ∧ atomNew 1 w a.toNat b.toNat y = (if b.toInt < a.toInt then b else a).toNat
    ∧ atomNew 2 w a.toNat b.toNat y = min a.toNat b.toNat
    ∧ atomNew 3 w a.toNat b.toNat y = (if a.toInt < b.toInt then b else a).toNat
    ∧ atomNew 4 w a.toNat b.toNat y = max a.toNat b.toNat
    ∧ atomNew 5 w a.toNat b.toNat y = (a &&& b).toNat ∧ atomNew 6 w a.toNat b.toNat y = (a ||| b).toNat
    ∧ atomNew 7 w a.toNat b.toNat y = (a ^^^ b).toNat ∧ atomNew 8 w a.toNat b.toNat y = b.toNat)
  ∧ (∀ (a b : Word) (y : Nat), atomNew 9 4 a.toNat b.toNat y =
      f32.result .rne false ((f32.operand false a.toNat).add .rne (f32.operand false b.toNat)) % 2 ^ 32)

/-- A store, a load and an atomic of one lane complete at a scratchpad, in the team's own window or, by a cluster address, in a
window of the cluster: the store writes its bytes, the load writes the lane's registers with the bytes that stand there, the atomic
delivers the old value and writes the new one, and nothing else in memory changes. A ldgu whose access is performed writes its scalar
register and no vector register (R38, R198, R199, R208). -/
def Obligations.WindowAccesses : Prop :=
  ∀ (s : State) (id : Nat) (o : Op) (m : MemWork) (u : Access) (g : Group) (t : Team),
    dget s.flight id = some o → o.work = .mem m → m.units = [u] → u.lane < 32 →
    dget s.groups o.group = some g → dget s.teams o.team = some t → t.st = .running →
    o.sout = [] → o.vout = [] → m.acquires = false →
    (∀ key, u.st = .pending → u.req = none → s.mayPerform id o m 0 u = true → m.uniform = false →
      (m.space = .window ∧ t.windowIn = true ∧ key = scratchKey t.core (t.wbase + u.addr))
        ∨ (m.space = .remote ∧ s.remoteCause t.asid t.core u.addr u.n = 0
            ∧ key = scratchKey (t.core / 64 * 64 + u.addr / 2 ^ 21) (u.addr % 2 ^ 21)) →
      let bytes := s.mem.readN key u.n
      (o.fam = .memory → m.kind = .store → m.ret = false →
        ∃ s', exec (.memoryAccessComplete id 0xFFFFFFFF) s = .next s' ∧ StoresAt s s' key u.data ∧ CountedDown s' id o g)
      ∧ (o.fam = .memory → m.kind = .load → m.ret = true →
        ∃ s' g', exec (.memoryAccessComplete id 0xFFFFFFFF) s = .next s' ∧ s'.mem = s.mem ∧ CountedDown s' id o g
          ∧ dget s'.groups o.group = some g' ∧ g'.s = g.s
          ∧ ∀ n l, l < 32 → g'.vreg n l =
              let w := loadWords m.size bytes
              if l = u.lane ∧ g.faulted.getLsbD l = false ∧ m.d ≤ n ∧ n < m.d + w.length then w.getD (n - m.d) 0 else g.vreg n l)
      ∧ (∀ k, k < 10 → o.fam = .atomic → m.kind = .atomic k → m.ret = true → m.size = 2 → u.n = 4 →
          g.faulted.getLsbD u.lane = false →
          ∃ s' g', exec (.atomicComplete id 0xFFFFFFFF) s = .next s' ∧ CountedDown s' id o g
            ∧ StoresAt s s' key (leBytes 4 (atomNew k 4 (leNat bytes) (leNat (u.data.take 4)) (leNat (u.data.drop 4))))
            ∧ dget s'.groups o.group = some g' ∧ g'.vreg m.d u.lane = BitVec.ofNat 32 (leNat bytes)))
    ∧ (m.space = .global → m.uniform = true → m.kind = .load → m.ret = true → u.st = .done → o.fam = .memory →
        ∃ s' g', exec (.memoryAccessComplete id 0xFFFFFFFF) s = .next s' ∧ s'.mem = s.mem ∧ CountedDown s' id o g
          ∧ dget s'.groups o.group = some g' ∧ (∀ n l, g'.vreg n l = g.vreg n l)
          ∧ ∀ n, g'.sreg n = if n = m.d then loadScalar m.size u.got else g.sreg n)

/-! ### Loom -/

/-- The loom instructions: a tile descriptor is recorded, a bank is bound or its status returned, a bound bank is let go, and
MMA, MZERO and MDRN enter the queue of the quad's loom with their operands captured, once their checks pass; mstat returns
passes, bound names and NaN flags (R309 to R313, R322, R325 to R331). -/
def Obligations.LoomInstructions : Prop :=
  ∀ (s : State) (r : Run), s.running = some r →
    ∀ (acc : BitVec 3) (h ha hb : BitVec 4) (a d : SReg) (vf : Reg7) (dc : DcField) (f : MdrnF) (k : Nat) (w : Word),
    let q := r.t.core / 4
    let l := s.loom q
    let entered := fun (t : State) work => (t.loom q).queue.length = l.queue.length + 1
      ∧ ∃ e ∈ (t.loom q).queue, e.op = s.nextId ∧ e.team = r.tid ∧ e.bank = k ∧ e.work = work
    let enters := fun (dc : DcField) work o => ∃ t, o = Host.Outcome.next t
      ∧ OpIssued s t r s.nextId (dcOf dc) (fun o => o.work = .loom) ∧ entered t work
    let room := fun (dc : DcField) => Countable r dc ∧ l.queued r.tid < 8
    let binds := fun o => ∃ t u, o = Host.Outcome.next t
      ∧ OpIssued s t r s.nextId (dcOf dc) (fun o => o.work = .none ∧ o.sout = [(d.toNat, 0)])
      ∧ dget t.teams r.tid = some u ∧ u.bankOf acc.toNat = some k ∧ ((t.loom q).bank k).st = .owned
      ∧ ((t.loom q).bank k).team = r.tid ∧ ((t.loom q).bank k).elems = (l.bank k).elems
    (tileOk (r.sx a) = true → ∃ t u, exec (.thdef h a) s = .next t ∧ t = { s with teams := t.teams }
      ∧ dget t.teams r.tid = some u ∧ ∀ n, dget u.handles n = if n = h.toNat then some (r.sx a) else dget r.t.handles n)
    ∧ (tileOk (r.sx a) = false → TakesTrap s r 2 0 (exec (.thdef h a) s))
    ∧ (Countable r dc → (r.t.bankOf acc.toNat).isSome →
        IssuesOp s r dc (fun o => o.work = .none ∧ o.sout = [(d.toNat, 1)]) (exec (.acqb acc d dc) s))
    ∧ (Countable r dc → r.t.bankOf acc.toNat = none → r.t.banks.length = 8 →
        l.lowest (fun b => b.reservedFor r.tid) = some k → binds (exec (.acqb acc d dc) s))
    ∧ (Countable r dc → r.t.bankOf acc.toNat = none → r.t.banks.length = 8 →
        (∀ n < 8, (l.bank n).team ≠ r.tid) → l.lowest (fun b => b.st == .free) = some k →
        binds (exec (.acqb acc d dc) s))
    ∧ (Countable r dc → r.t.bankOf acc.toNat = none → (∀ n < 8, (l.bank n).st = .owned) →
        IssuesOp s r dc (fun o => o.work = .none ∧ o.sout = [(d.toNat, 2)]) (exec (.acqb acc d dc) s))
    ∧ (r.t.bankOf acc.toNat = some k → (l.bank k).st = .owned → ∃ t u, exec (.relb acc) s = .next t ∧ t.mem = s.mem
        ∧ t.groups = s.groups ∧ dget t.teams r.tid = some u ∧ u.bankOf acc.toNat = none ∧ ((t.loom q).bank k).st = .zeroing)
    ∧ (r.t.bankOf acc.toNat = none → exec (.relb acc) s = .next s)
    ∧ (room dc → (∀ l ∈ lanesOf r.act, r.g.vreg vf.toNat l = w) → r.act ≠ 0 → formatOk w = true →
        r.t.bankOf acc.toNat = some k → mmaTiles r.t ha hb w = none →
        enters dc (.mma ((dget r.t.handles ha.toNat).getD 0) ((dget r.t.handles hb.toNat).getD 0) w)
          (exec (.mma acc ha hb vf dc) s))
    ∧ ((∃ i j, r.act.getLsbD i = true ∧ r.act.getLsbD j = true ∧ r.g.vreg vf.toNat i ≠ r.g.vreg vf.toNat j) →
        TakesTrap s r 4 0 (exec (.mma acc ha hb vf dc) s))
    ∧ (room dc → r.t.bankOf acc.toNat = some k → enters dc .zero (exec (.mzero acc dc) s))
    ∧ (r.t.bankOf acc.toNat = none → TakesTrap s r 6 0 (exec (.mzero acc dc) s))
    ∧ (room f.dc → r.t.bankOf f.acc.toNat = some k → mdrnTile r.t f = none → (f.cr = 1 → f.bk.toNat < s.nbarOf r.t) →
        enters f.dc (.drain ((dget r.t.handles f.hd.toNat).getD 0)
          (if f.scl = 1 then some (BitVec.ofNat 32 (r.sx f.ss).toNat) else none) f.dfmt.toNat (f.sat == 1) f.row0.toNat
          f.col0.toNat (if f.cr = 1 then some f.bk.toNat else none)) (exec (.mdrn f) s))
    ∧ (Countable r dc → l.queued r.tid ≤ 8 →
        IssuesOp s r dc (fun o => o.work = .none ∧ ∃ x : DWord, o.sout = [(d.toNat, x)]
          ∧ x.toNat % 2 ^ 16 = r.t.passes % 2 ^ 16 ∧ x.toNat / 2 ^ 16 % 2 ^ 16 = l.queued r.tid
          ∧ (∀ n < 8, x.getLsbD (40 + n) = (r.t.bankOf n).isSome)
          ∧ ∀ n < 8, x.getLsbD (48 + n) = ((r.t.bankOf n).map fun b => (l.bank b).nan).getD false) (exec (.mstat d dc) s))

/-- The steps of a loom with one entry: a pass that may start does, with its operands read from the window; a pass that ends
leaves its results in its bank and counts; MZERO zeroes its bank, and MDRN writes its rectangle into the window but the words of it
that are written already, every other byte of memory as before; each of the three lowers its counter. A bank that is ZEROING with no
entry on it is zeroed, and is FREE unless its team keeps its reservation (R312, R318 to R323, R329, R330). -/
def Obligations.LoomSteps : Prop :=
  (∀ (s : State) (q : Nat) (l : Loom) (e : LoomEntry) (o : Op) (g : Group) (t : Team),
    s.loom q = l → l.queue = [e] → dget s.flight e.op = some o → dget s.groups o.group = some g →
    dget s.teams e.team = some t → o.team = e.team → t.st = .running → t.core / 4 = q →
    (∀ ha hb f, e.work = .mma ha hb f → e.stage = 0 → s.windowSettled e.op = true → s.issueStopped (4 * q) = false →
      ∃ s' l' e', exec (.loomPassStart q) s = .next s' ∧ s' = { s with looms := s'.looms } ∧ s'.loom q = l'
        ∧ l'.queue = [e'] ∧ e'.stage = 2 ∧ e'.op = e.op ∧ e'.a = (s.passOperands t e ha hb f).1
        ∧ e'.b = (s.passOperands t e ha hb f).2)
    ∧ (∀ ha hb f, e.work = .mma ha hb f → e.stage = 2 →
      ∃ s' t', exec (.loomPassEnd q) s = .next s' ∧ s'.mem = s.mem ∧ (s'.loom q).queue = []
        ∧ (s'.loom q).bank e.bank = (l.bank e.bank).pass (f.getLsbD 11)
            (e.a.map (loomRow (f.toNat % 16))) (e.b.map (loomRow (f.toNat / 16 % 16)))
        ∧ dget s'.teams e.team = some t' ∧ t'.passes = (t.passes + 1) % 2 ^ 16 ∧ CountedDown s' e.op o g)
    ∧ (e.work = .zero → e.stage = 2 →
      ∃ s', exec (.mzeroDone e.op) s = .next s' ∧ s'.mem = s.mem ∧ (s'.loom q).queue = []
        ∧ ((s'.loom q).bank e.bank).elems = [] ∧ ((s'.loom q).bank e.bank).nan = false ∧ CountedDown s' e.op o g)
    ∧ (∀ hd scale fmt sat row0 col0 bk, e.work = .drain hd scale fmt sat row0 col0 bk → e.stage = 2 →
      ∃ s', exec (.mdrnDone e.op) s = .next s' ∧ (s'.loom q).queue = [] ∧ CountedDown s' e.op o g
        ∧ s'.mem = (s.writeWindow t (fun w => !(e.words.any fun x => x.1 == w))
            (drainBytes (l.bank e.bank) (tileOf hd) scale fmt sat row0 col0)).mem))
  ∧ (∀ (s : State) (q k : Nat), ((s.loom q).bank k).st = .zeroing → (∀ e ∈ (s.loom q).queue, e.bank ≠ k) →
    ∃ t, exec (.bankZeroingDone q k) s = .next t ∧ t = { s with looms := t.looms } ∧ ((t.loom q).bank k).elems = []
      ∧ ((t.loom q).bank k).nan = false
      ∧ (((s.loom q).bank k).kept = false → ((t.loom q).bank k).st = .free)
      ∧ ∀ n, n ≠ k → (t.loom q).bank n = (s.loom q).bank n)

/-- The sum of a pass is exact: over at most 512 products of loom integers from -255 to 255, what the three residue channels
give back is the sum of the products (R78 to R80). -/
def Obligations.ResiduesReconstruct : Prop :=
  ∀ (a b : List Int), a.length ≤ 512 → (∀ x ∈ a, -255 ≤ x ∧ x ≤ 255) → (∀ x ∈ b, -255 ≤ x ∧ x ≤ 255) →
    let x := ((a.zip b).map fun p => p.1 * p.2).sum
    dotInt a b = x ∧ (∀ m ∈ [511, 512, 513], (residue m a b : Int) = x % (m : Int))
    ∧ reconstruct (x % 511).toNat (x % 512).toNat (x % 513).toNat = x

/-! ### Porter -/

/-- The porter instructions, where the core's queue has room. A data command whose checks pass enters the queue and joins the group's
open batch; a stream whose checks pass takes the lowest free slot, or returns all ones where there is none. pstop lets the tile in
flight be the last, or finds no stream; bseal gives the batch its number; bwait goes on where its batch is complete and is BLOCKED
where not; pcred adds a credit to the batch, or traps. With 64 commands in the queue none of them issues (R291, R295 to R304). That a
stream takes the lowest free slot is the model's choice (log 38). -/
def Obligations.PorterInstructions : Prop :=
  ∀ (s : State) (r : Run), s.running = some r →
    ∀ (w : Pw) (clip si a d : SReg) (cr wt : Bit) (bk dfmt : BitVec 4) (pg : BitVec 6) (dc : DcField),
    let core := s.core r.t.core
    let g := (r.sx w.sa).toNat
    let wo := (r.sx w.sb).toNat
    let lo := (r.sx w.sc).toNat % 2 ^ 21
    let rcd := s.winRecord r.t lo
    let credit := if cr = 1 then some bk.toNat else none
    let free := fun (dc : DcField) => Countable r dc ∧ core.porter.length < 64
    let room := Countable r w.dc ∧ core.porter.length < 64 ∧ r.windowBusy s = false ∧ s.markedIn r.gid 4 = []
      ∧ (cr = 1 → bk.toNat < s.nbarOf r.t)
    let copyOk := fun k => checkPlaces r.t [(lo, 16, 64)] = none ∧ wo < 2 ^ 21 ∧ layoutOk rcd k wo = true
      ∧ checkWindow r.t (layoutOf rcd) k ((layoutOf rcd).extent 1) wo = none ∧ checkBase (layoutOf rcd) k g = none
    let iv := r.sx si
    let n := iv.toNat / 2 ^ 42 % 2 ^ 12 + 1
    let ioff := iv.toNat % 2 ^ 21
    let woff := iv.toNat / 2 ^ 21 % 2 ^ 21
    let listFits := fun k (weighted : Bool) (pool : Nat) =>
      checkPlaces r.t ((lo, 16, 64) :: (ioff, 4, 4 * n) :: if weighted then [(woff, 4, 4 * n)] else []) = none
      ∧ wo < 2 ^ 21 ∧ layoutOk rcd k wo = true ∧ listOk (layoutOf rcd) iv n pool weighted = true
      ∧ checkWindow r.t (layoutOf rcd) k (n / pool) wo = none ∧ checkBase (layoutOf rcd) k g = none
    let starts := fun (k : PorterKind) o => ∃ t c u, o = Host.Outcome.next t
      ∧ OpIssued s t r s.nextId (dcOf w.dc) (fun o => ∃ m, o.work = .mem m ∧ m.kind = .pread
          ∧ (k ≠ .pquant → m.units = c.units))
      ∧ (t.core r.t.core).porter = core.porter ++ [c] ∧ c.op = s.nextId ∧ c.kind = k ∧ c.g = g ∧ c.team = r.tid
      ∧ c.bk = credit ∧ c.w = wo
      ∧ dget t.groups r.gid = some u ∧ ∃ b, u.batchOpen = some b ∧ s.nextId ∈ b.cmds
    let ro := lo
    let ring := s.winRecord r.t ro
    let rlo := ring.toNat / 2 ^ 161 % 2 ^ 21
    let slots := List.range (ringSlots ring)
    let rlay := layoutOf (s.winRecord r.t rlo)
    let streamFits := Countable r w.dc ∧ core.porter.length < 64 ∧ r.windowBusy s = false ∧ s.markedIn r.gid 4 = []
      ∧ checkPlaces r.t [(ro, 16, 64), (rlo, 16, 64)] = none ∧ ringOk ring = true
      ∧ ∀ k ∈ slots, layoutOk (s.winRecord r.t rlo) .pcpy (ringSlot ring k) = true
        ∧ ringBarrier ring + k < s.nbarOf r.t ∧ (r.t.barrier (ringBarrier ring + k)).armed = true
        ∧ checkWindow r.t rlay .pcpy (rlay.extent 1) (ringSlot ring k) = none ∧ checkBase rlay .pcpy wo = none
    (room → copyOk .pcpy → starts .pcpy (exec (.pcpy w clip cr bk) s))
    ∧ (room → copyOk .pput → starts .pput (exec (.pput w clip cr bk) s))
    ∧ (room → listFits .pgath (wt == 1) (pg.toNat + 1) → starts .pgath (exec (.pgath w si cr bk wt pg) s))
    ∧ (room → listFits .pscat false 1 → starts .pscat (exec (.pscat w si cr bk) s))
    ∧ (room → starts .pquant (exec (.pquant w dfmt cr bk) s))
    ∧ (streamFits → ∀ k < 8, (∀ j < k, dget core.streams j ≠ none) → dget core.streams k = none →
        ∃ t st, exec (.pstream w clip) s = .next t
          ∧ OpIssued s t r s.nextId (dcOf w.dc) (fun o => o.sout = [(w.sa.toNat, BitVec.ofNat 64 k)])
          ∧ dget (t.core r.t.core).streams k = some st ∧ st.ring = ring ∧ st.tile = 0 ∧ st.flying = none ∧ st.g = wo)
    ∧ (streamFits → (∀ j < 8, dget core.streams j ≠ none) →
        IssuesOp s r w.dc (fun o => o.sout = [(w.sa.toNat, BitVec.allOnes 64)]) (exec (.pstream w clip) s))
    ∧ (free dc → ∀ st, dget core.streams (r.sx a).toNat = some st → st.team = r.tid → ∀ f, st.flying = some f →
        ∃ t st', exec (.pstop a dc) s = .next t ∧ OpIssued s t r s.nextId (dcOf dc) (fun o => o.waits = [f])
          ∧ dget (t.core r.t.core).streams (r.sx a).toNat = some st' ∧ st'.last = some st.tile)
    ∧ (free dc → dget core.streams (r.sx a).toNat = none →
        IssuesOp s r dc (fun o => o.work = .none ∧ o.waits = []) (exec (.pstop a dc) s))
    ∧ (free dc → r.g.batches.length < 255 → ∃ t o u, exec (.bseal d dc) s = .next t ∧ t.mem = s.mem
        ∧ t.flight = s.flight ++ [(s.nextId, o)] ∧ o.sout = [(d.toNat, BitVec.ofNat 64 ((r.g.batchL + 1) % 2 ^ 16))]
        ∧ dget t.groups r.gid = some u ∧ u.batchL = (r.g.batchL + 1) % 2 ^ 16 ∧ u.batchOpen = none)
    ∧ (core.porter.length < 64 → r.g.covered ((r.sx a).toNat % 2 ^ 16) = true → exec (.bwait a) s = .next s)
    ∧ (core.porter.length < 64 → r.g.covered ((r.sx a).toNat % 2 ^ 16) = false → ∃ t, exec (.bwait a) s = .next t ∧ t.mem = s.mem
        ∧ Blocks t r (.bwait ((r.sx a).toNat % 2 ^ 16)))
    ∧ (core.porter.length < 64 → bk.toNat < s.nbarOf r.t → ((r.g.batchOpen.map Batch.credits).getD []).length < 4 →
        (r.sx a).toNat ≤ 2 ^ 40 → ∃ t b, exec (.pcred bk a) s = .next t ∧ OnlyGroup s t r.gid { r.g with batchOpen := some b }
          ∧ b.credits = (r.g.batchOpen.map Batch.credits).getD [] ++ [(bk.toNat, (r.sx a).toNat)]
          ∧ b.cmds = (r.g.batchOpen.map Batch.cmds).getD [])
    ∧ (core.porter.length < 64 → ((r.g.batchOpen.map Batch.credits).getD []).length < 4 → (r.sx a).toNat ≤ 2 ^ 40 →
        s.nbarOf r.t ≤ bk.toNat → TakesTrap s r 9 (16 * bk.toNat + 2) (exec (.pcred bk a) s))
    ∧ (core.porter.length < 64 → 4 ≤ ((r.g.batchOpen.map Batch.credits).getD []).length ∨ 2 ^ 40 < (r.sx a).toNat →
        TakesTrap s r 2 0 (exec (.pcred bk a) s))
    -- with 64 commands in the queue none of them issues (R291)
    ∧ (64 ≤ core.porter.length → ∀ i ∈ [Instr.pcpy w clip cr bk, .pput w clip cr bk, .pgath w si cr bk wt pg, .pscat w si cr bk,
        .pquant w dfmt cr bk, .pstream w clip, .pstop a dc, .bseal d dc, .bwait a, .pcred bk a],
        ∃ t, exec i s = .next t ∧ t.mem = s.mem ∧ t.flight = s.flight ∧ t.cur = none
          ∧ (t.core r.t.core).porter = core.porter)

/-- The steps of a porter command, of a team that runs but where it says otherwise: its checks end and its counter goes down; once its
accesses are done it completes by writing its rows into the window, but the words of it that it has written already, and no other
byte of memory; it stops on a fatal cause, which its group is left to record, or with its HALTING team; a read of a page in the slow
tier that waited for the remote budget takes 64 bytes of it (R265, R297, R305, R307, R308). -/
def Obligations.PorterSteps : Prop :=
  ∀ (s : State) (id : Nat) (o : Op) (g : Group) (t : Team) (m : MemWork) (n : Nat) (c : PorterCmd),
    dget s.flight id = some o → dget s.groups o.group = some g → dget s.teams o.team = some t → o.fam = .porter →
    o.work = .mem m → s.porterOf t id = some (n, c) →
    (t.st ≠ .halting → c.checked = false → ∃ s' g', exec (.porterChecksDone id) s = .next s' ∧ s'.mem = s.mem
      ∧ dget s'.flight id = some { o with dc := none } ∧ dget s'.groups o.group = some g'
      ∧ (∀ k, g'.cnt k = if o.dc = some k then g.cnt k - 1 else g.cnt k)
      ∧ ∀ p ∈ (s'.core t.core).porter, p.op = id → p.checked = true)
    ∧ (n < 16 → c.checked = true → t.st = .running → (∀ u ∈ m.units, u.st = .done) →
      ∃ s', exec (.porterCommandComplete id) s = .next s' ∧ dget s'.flight id = none
        ∧ s'.mem = (s.writeWindow t (fun w => !c.moved.contains w) (s.porterWindow t.asid c m.units)).mem
        ∧ ∀ p ∈ (s'.core t.core).porter, p.op ≠ id)
    ∧ (t.st = .halting → ∃ s', exec (.porterStop id) s = .next s' ∧ s'.mem = s.mem ∧ dget s'.flight id = none
        ∧ ∀ p ∈ (s'.core t.core).porter, p.op ≠ id)
    ∧ (t.st = .running → g.st = .live → ∀ cause va acc, m.porterCause = some (cause, va, acc) →
      ∃ s' g' x, exec (.porterStop id) s = .next s' ∧ s'.mem = s.mem ∧ dget s'.flight id = none
        ∧ dget s'.groups o.group = some g' ∧ (o.mask, x) ∈ g'.pendStops ∧ x.cause = cause ∧ x.va = va)
    ∧ (∀ u a b p x, m.units = [u] → m.kind = .pread → u.half = 0 → u.st = .held → u.req = none → t.st = .running → n < 16 →
        s.pageAt t.asid u.addr = some (a, b, p) → p.st = .remote → p.back = 1 → p.hostlock = false →
        c.pages = [] → s.accessCause t.asid t.mode .pread u.addr = 0 → s.regionAt t.asid u.addr = none → dget s.ctxs t.asid = some x →
        64000 ≤ x.budgetNow s.pk.gts →
        ∃ s' x', exec (.remoteBudgetAccrued id) s = .next s' ∧ s'.mem = s.mem ∧ dget s'.ctxs t.asid = some x'
          ∧ x'.budget = x.budgetNow s.pk.gts - 64000 ∧ x'.budgetAt = s.pk.gts)

/-- A stream whose next slot is empty and awaited starts its tile: a command of its own, with its base a stride further on
and the credit of the slot's barrier (R300). -/
def Obligations.StreamTiles : Prop :=
  ∀ (s : State) (core k : Nat) (st : Stream) (t : Team) (g : Group),
    dget (s.core core).streams k = some st → dget s.teams st.team = some t → dget s.groups st.group = some g →
    let slot := st.tile % ringSlots st.ring
    let b := t.barrier (ringBarrier st.ring + slot)
    b.spilled = false → s.markedIn st.group 4 = [] → b.tarr = b.texp → b.phase = (st.phases.getD slot 0 + st.tile / ringSlots st.ring) % 2 ^ 32 →
    st.last = none → st.flying = none → t.st = .running → dget s.flight st.cmd = none →
    (lfield st.ring 255 224 = 0 ∨ st.tile < lfield st.ring 255 224) → (s.core core).porter.length < 64 →
    ∃ s' st' c o, exec (.pstreamTileStart core k) s = .next s' ∧ s'.mem = s.mem ∧ s'.groups = s.groups
      ∧ dget (s'.core core).streams k = some st' ∧ st'.flying = some s.nextId ∧ st'.tile = st.tile
      ∧ (s'.core core).porter = (s.core core).porter ++ [c] ∧ c.op = s.nextId
      ∧ c.bk = some (ringBarrier st.ring + slot) ∧ c.w = ringSlot st.ring slot
      ∧ (c.g : Int) = ((st.g : Int) + st.tile * signed40 (lfield st.ring 319 280)) % 2 ^ 64
      ∧ s'.flight = s.flight ++ [(s.nextId, o)] ∧ o.dc = none

/-! ### Ordering, waiting, control -/

/-- fence, dwait, waitc, timewait and sleep: each goes on where what it waits for is there, and otherwise its split is BLOCKED
for that reason, but that a fence of a scope narrower than the device may go on before (log 50); waitc returns the counter it
read; yield and a sleep of 0 give way to the slot's other groups to the end of the next cycle; passpri moves the priority token
of its slot (R155, R212 to R217). Which accesses a fence waits for, and that the split it holds stays at it, are the model's reading
(logs 22, 23, 50). -/
def Obligations.WaitInstructions : Prop :=
  ∀ (s : State) (r : Run), s.running = some r →
    ∀ (ord : BitVec 2) (scope : BitVec 3) (k : DcField) (n : BitVec 6) (a b d : SReg) (rel i : Bit) (n15 : BitVec 15),
    let blocks := fun x o => ∃ t, o = Host.Outcome.next t ∧ t.mem = s.mem ∧ Blocks t r x
    let ops := s.fenceAll r.gid ord.toNat scope.toNat
    let target := if rel = 1 then (s.pk.gts + (r.sx a).toNat) % 2 ^ 64 else (r.sx a).toNat
    let cycles := if i = 1 then n15.toNat else min (r.sx a).toNat 1048575
    let va := (r.sx a).toNat
    let word := BitVec.ofNat 64 (leNat (s.tbytes r.t va 8))
    let readable := va % 8 = 0 ∧ OpenPage s r.t .read va ∧ r.t.versioned = false ∧ r.waitcBusy s va = false
    let grp := if i = 1 then n.toNat else (r.sx a).toNat % 64
    let gives := fun o => ∃ t, o = Host.Outcome.next t
      ∧ OnlyGroup s t r.gid { r.g with yieldTo := (s.cyc1000 r.g.core / 1000 + 2) * 1000 }
    (ops = [] → ∃ t, exec (.fence ord scope) s = .next t ∧ t = { s with cores := t.cores }
      ∧ (ord.toNat % 2 = 1 → 3 ≤ scope.toNat → ∀ l ∈ (t.core r.t.core).l1, l.asid ≠ r.t.asid))
    ∧ (ops ≠ [] → 4 ≤ scope.toNat → blocks (.fence ord.toNat scope.toNat ops) (exec (.fence ord scope) s))
    ∧ (ops ≠ [] → ∃ t, exec (.fence ord scope) s = .next t ∧ t.mem = s.mem)
    ∧ (r.g.cnt k.toNat ≤ n.toNat → exec (.dwait k n) s = .next s)
    ∧ (n.toNat < r.g.cnt k.toNat → blocks (.dwait k.toNat n.toNat) (exec (.dwait k n) s))
    ∧ (readable → word.toInt ≤ (r.sx b).toInt → ∃ t g, exec (.waitc d a b) s = .next t ∧ t.mem = s.mem
        ∧ dget t.groups r.gid = some g ∧ g.v = r.g.v ∧ (∀ j, g.sreg j = if j = d.toNat then word else r.g.sreg j)
        ∧ (g.split r.slot).st = .ready)
    ∧ (readable → (r.sx b).toInt < word.toInt → blocks (.waitc d.toNat va (r.sx b) none) (exec (.waitc d a b) s))
    ∧ (target ≤ s.pk.gts → exec (.timewait a rel) s = .next s)
    ∧ (s.pk.gts < target → blocks (.timewait target) (exec (.timewait a rel) s))
    ∧ gives (exec .yield s)
    ∧ (cycles = 0 → gives (exec (.sleep a i n15) s))
    ∧ (cycles ≠ 0 → blocks (.sleep (s.cyc1000 r.t.core + 1000 * cycles)) (exec (.sleep a i n15) s))
    ∧ (∀ h x, (h, x) ∈ s.groups → x.team = r.tid → x.grp = grp → x.st = .live → grp % 2 = r.g.grp % 2 →
        (∀ e ∈ s.groupsOf r.tid, e.2.grp = grp → e.1 = h) → (s.core r.t.core).tok0 ∈ [none, some r.gid] →
        (s.core r.t.core).tok1 ∈ [none, some r.gid] → ∃ t, exec (.passpri a i n) s = .next t
          ∧ t = { s with cores := t.cores }
          ∧ (if grp % 2 = 0 then (t.core r.t.core).tok0 else (t.core r.t.core).tok1) = some h)
    ∧ ((∀ e ∈ s.groupsOf r.tid, e.2.grp = grp → e.2.st ≠ .live) → exec (.passpri a i n) s = .next s)

/-- A wait ends: TIMEWAIT_EXPIRY at its target, SLEEP_EXPIRY after its cycles, WAITC_RECHECK where the counter is low enough, with
the counter returned, or where it was low enough once while the split waited, with that value; the split is READY again. Before
that, none of them is a step (R160, R214, R216, R217). -/
def Obligations.WaitsEnd : Prop :=
  ∀ (s : State) (gid slot : Nat) (g : Group) (t : Team), dget s.groups gid = some g → dget s.teams g.team = some t →
    slot < g.splits.length → g.st = .live →
    (∀ n, (g.split slot).st = .blocked (.timewait n) →
      (n ≤ s.pk.gts → ∃ s', exec (.timewaitExpiry gid slot) s = .next s' ∧ s'.mem = s.mem ∧ Wakes s' gid slot g)
      ∧ (s.pk.gts < n → exec (.timewaitExpiry gid slot) s = .refused .notEnabled))
    ∧ (∀ n, (g.split slot).st = .blocked (.sleep n) →
      (n ≤ s.cyc1000 t.core → ∃ s', exec (.sleepExpiry gid slot) s = .next s' ∧ s'.mem = s.mem ∧ Wakes s' gid slot g)
      ∧ (s.cyc1000 t.core < n → exec (.sleepExpiry gid slot) s = .refused .notEnabled))
    ∧ (∀ d va thr c, (g.split slot).st = .blocked (.waitc d va thr (some c)) → s.regionAt t.asid va = none →
        ∃ s' g', exec (.waitcRecheck gid slot) s = .next s' ∧ s'.mem = s.mem ∧ dget s'.groups gid = some g'
          ∧ (g'.split slot).st = .ready ∧ g'.sreg d = c)
    ∧ (∀ d va thr, (g.split slot).st = .blocked (.waitc d va thr none) → va % 8 = 0 → OpenPage s t .read va →
        t.versioned = false → s.acquiring gid = [] → (g.split slot).past = [] → s.markedIn gid 4 = [] →
        let word := BitVec.ofNat 64 (leNat (s.tbytes t va 8))
        (word.toInt ≤ thr.toInt →
          ∃ s' g', exec (.waitcRecheck gid slot) s = .next s' ∧ s'.mem = s.mem ∧ dget s'.groups gid = some g'
            ∧ (g'.split slot).st = .ready ∧ g'.sreg d = word)
        ∧ (thr.toInt < word.toInt → exec (.waitcRecheck gid slot) s = .refused .notEnabled))

/-- The branches: a scalar condition, a lane mask, unconditional, call with its link and return; a branch that is not taken
changes nothing, and a mask that takes some lanes divides the split where a slot is free; a brd issued again after a wait for room
takes the lanes of its first issue (R36, R135, R140, R218, R219). exit ends
its lanes and frees its split; trap takes SOFTWARE; brk takes DEBUG_BREAK, or with a debugger attached holds its group
without a trap; registers and memory stay (R221, R222, R378, R389). -/
def Obligations.BranchesEndsAndTraps : Prop :=
  (∀ (s : State) (r : Run), s.running = some r → ∀ (c : BitVec 2) (a : SReg) (off : BitVec 16),
    let target := (((r.sp.hdr + 4 * (r.sp.pos + 1) : Nat) + 4 * off.toInt) % 2 ^ 64).toNat
    let x := r.sx a
    let cond := if c = 0 then x = 0 else if c = 1 then x ≠ 0 else if c = 2 then x.toInt < 0 else 0 ≤ x.toInt
    let taken := r.act &&& (if r.sp.brd = 0 then BitVec.ofNat 32 x.toNat else r.sp.brd)
    let run := { r with sp := { r.sp with brd := 0 } }
    (cond → Branches s r r.g target (exec (.bru c a off) s)) ∧ (¬cond → exec (.bru c a off) s = .next s)
    ∧ (taken = 0 → ∃ t, exec (.brd a off) s = .next t ∧ OnlyGroup s t r.gid (r.g.setSplit r.slot run.sp))
    ∧ (taken ≠ 0 → taken = r.act → Branches s run r.g target (exec (.brd a off) s))
    ∧ (taken ≠ 0 → taken ≠ r.act → r.g.splits.length = 4 → ∀ j, r.g.freeSlot = some j →
        ∃ t g, exec (.brd a off) s = .next t ∧ t.mem = s.mem
        ∧ dget t.groups r.gid = some g ∧ g.v = r.g.v ∧ g.s = r.g.s ∧ (g.split j).st = .ready ∧ (g.split j).pc = target
        ∧ (g.split j).mask = taken ∧ (g.split r.slot).st = .ready ∧ (g.split r.slot).pc = r.sp.pc
        ∧ (g.split r.slot).mask = r.act &&& ~~~taken)
    ∧ Branches s r r.g target (exec (.jmp off) s)
    ∧ (∀ d : SReg, Branches s r (r.g.setS d.toNat (BitVec.ofNat 64 (r.sp.hdr + 4 * (r.sp.words.length + 1)))) target
        (exec (.call d off) s))
    ∧ Branches s r r.g x.toNat (exec (.ret a) s))
  ∧ (∀ (s : State) (r : Run), s.running = some r → ∀ (code : BitVec 16),
    let dbg := ((dget s.ctxs r.t.asid).map Ctx.dbg).getD false
    (∃ t g, exec .exit s = .next t ∧ t.mem = s.mem ∧ dget t.groups r.gid = some g ∧ (g.split r.slot).st = .free
      ∧ g.ended = r.g.ended ||| r.act ∧ g.v = r.g.v ∧ g.s = r.g.s)
    ∧ TakesTrap s r 10 0 (exec (.trap code) s)
    ∧ (dbg = false → TakesTrap s r 11 0 (exec (.brk code) s))
    ∧ (dbg = true → r.g.faulted = 0 → ∃ t g, exec (.brk code) s = .next t ∧ t.mem = s.mem ∧ t.teams = s.teams
        ∧ dget t.groups r.gid = some g ∧ g.dbgHeld = true ∧ g.run = none ∧ (g.split r.slot).pc = r.sp.pc
        ∧ g.v = r.g.v ∧ g.s = r.g.s))

/-- launch and enq of one lane of a NORMAL team: a well-formed record is accepted with status OK as a new kernel, ENQUEUED, in the
team's pending-launch queue or in the segment of the queue that its key chooses; a record that is not well formed gets
BAD_LAUNCH; with four entries in the pending-launch queue the split of a launch waits; a launch beyond depth 8 traps (R104, R107, R110, R128, R223, R224). -/
def Obligations.LaunchAndEnqueue : Prop :=
  ∀ (s : State) (r : Run) (d a : Reg7) (l : Nat), s.running = some r → lanesOf r.act = [l] → s.covered r.gid = [] →
    r.t.versioned = false → r.g.marked = 0 →
    let v := r.g.vreg a.toNat l
    let depth := ((dget s.kernels r.t.kernel).map Kernel.depth).getD 0 + 1
    let rcd := s.windowRecord r.t v.toNat
    let erc := s.windowRecord r.t (v.toNat % 2 ^ 21)
    let qid := v.toNat / 2 ^ 21 % 2 ^ 6
    let status := fun (t : State) x => ∃ g, dget t.groups r.gid = some g ∧ g.vreg d.toNat l = BitVec.ofNat 32 x
      ∧ g.s = r.g.s ∧ ∀ n k, k < 32 → (n, k) ≠ (d.toNat, l) → g.vreg n k = r.g.vreg n k
    let fits := fun (off : Nat) => off % 16 = 0 ∧ off + 128 ≤ r.t.wsize
    (depth ≤ 8 → fits v.toNat → recordOk (withDepth rcd depth) = true → s.cancelling r.t.asid = false →
      r.t.pend.length < 4 → ∃ t k u, exec (.launch d a) s = .next t ∧ t.mem = s.mem ∧ status t 0
        ∧ dget t.teams r.tid = some u ∧ u.pend.length = r.t.pend.length + 1
        ∧ (∃ n, n ∈ u.pend ∧ dget t.kernels n = some k) ∧ k.st = .enqueued ∧ k.depth = depth
        ∧ k.rcd = withDepth rcd depth)
    ∧ (depth ≤ 8 → fits v.toNat → recordOk (withDepth rcd depth) = false → r.t.pend.length < 4 →
        ∃ t, exec (.launch d a) s = .next t ∧ t.mem = s.mem ∧ t.kernels = s.kernels ∧ status t codeBadLaunch)
    ∧ (depth ≤ 8 → fits v.toNat → s.cancelling r.t.asid = false → 4 ≤ r.t.pend.length →
        ∃ t, exec (.launch d a) s = .next t ∧ t.mem = s.mem ∧ t.kernels = s.kernels
          ∧ Blocks t r (.launch d.toNat ((List.range 32).map (r.g.vreg a.toNat)) (maskOf [l])))
    ∧ (8 < depth → TakesTrap s r 7 0 (exec (.launch d a) s))
    ∧ (∀ c q, dget s.ctxs r.t.asid = some c → dget c.queues qid = some q → q.st ≠ .draining → v.toNat < 2 ^ 27 →
        fits (v.toNat % 2 ^ 21) → recordOk erc = true → recordTop erc = true → (q.held (sliceOf erc)).length < 2 ^ q.c →
        ∃ t c' q' k n, exec (.enq d a) s = .next t ∧ t.mem = s.mem ∧ status t 0 ∧ dget t.ctxs r.t.asid = some c'
          ∧ dget c'.queues qid = some q' ∧ q'.held (sliceOf erc) = q.held (sliceOf erc) ++ [n]
          ∧ dget t.kernels n = some k ∧ k.st = .enqueued ∧ k.rcd = erc)
    ∧ (∀ c q, dget s.ctxs r.t.asid = some c → dget c.queues qid = some q → q.st ≠ .draining → v.toNat < 2 ^ 27 →
        fits (v.toNat % 2 ^ 21) → recordOk erc = false →
        ∃ t, exec (.enq d a) s = .next t ∧ t.mem = s.mem ∧ t.kernels = s.kernels ∧ status t codeBadLaunch)

/-- The segment of a record is the XOR of the eight bytes of its affinity key (R104). -/
def Obligations.SegmentOfRecord : Prop :=
  (∀ (rcd : BitVec 1024),
    let b := fun i => (rcd.extractLsb' (464 + 8 * i) 8)
    sliceOf rcd = (b 0 ^^^ b 1 ^^^ b 2 ^^^ b 3 ^^^ b 4 ^^^ b 5 ^^^ b 6 ^^^ b 7).toNat)
  ∧ ∀ (s : State) (cluster prio : Nat), ∀ e ∈ s.heads cluster prio, cluster = e.1.2.2 / 32

/-! ### Barriers -/

/-- Phase q reads as complete exactly where (PHASE - q) mod 2^32 lies in 1 to 2^31 - 1 (R278). -/
def Obligations.PhaseComplete : Prop :=
  ∀ (phase q : BitVec 32),
    phaseDone phase.toNat q.toNat = true ↔ 1 ≤ (phase - q).toNat ∧ (phase - q).toNat ≤ 2 ^ 31 - 1

/-- The barrier instructions on a register below NBAR: binit arms an UNARMED entry, and on an ARMED one has no effect with the
arming operands but that the entry counts as touched (R281); on an ARMED entry barv and bdrop count the active threads that have
not arrived, and barb bytes, and the step that meets both counts completes the phase; barv returns the phase under a counter it
names; bwaitp goes on where its phase reads as complete, and otherwise its split is BLOCKED; btest returns the phase and state,
or the bytes; on an UNARMED entry barv, barb, bwaitp and bdrop trap, and on a register at or above NBAR all six (R274, R277,
R283 to R289). -/
def Obligations.BarrierInstructions : Prop :=
  ∀ (s : State) (r : Run), s.running = some r → ∀ (kk : BitVec 4) (a b d p : SReg) (sel : Bit) (dc : DcField),
    let k := kk.toNat
    let x := r.t.barrier k
    let n := (lanesOf r.act).length
    let ths := (lanesOf r.act).map fun l => r.g.tid.getD l 0
    let fresh := ∀ t ∈ ths, t ∉ x.arrived ∧ t ∉ x.dropped
    let t0 := (r.sx a).toNat % 2 ^ 11
    let count := if t0 = 0 then s.ntidOf r.t else t0
    let q := (r.sx p).toNat % 2 ^ 32
    let after := fun o P => ∃ t u, o = Host.Outcome.next t ∧ t.mem = s.mem ∧ dget t.teams r.tid = some u ∧ P (u.barrier k)
    -- nothing changes but which entry was touched last (R281)
    let rests := fun o => ∃ t u, o = Host.Outcome.next t ∧ t = { s with teams := t.teams, nextId := s.nextId + 1 }
      ∧ dget t.teams r.tid = some u ∧ u = { r.t with barriers := u.barriers }
      ∧ u.barrier k = { x with touched := (u.barrier k).touched }
    let finished := fun (y : Barrier) (left : Nat) => y.phase = (x.phase + 1) % 2 ^ 32 ∧ y.tarr = 0 ∧ y.bcred = 0
      ∧ y.texp = x.texp - left ∧ y.arrived = []
    let free := Countable r dc ∧ s.releasable r.gid = []
    (s.nbarOf r.t ≤ k →
      TakesTrap s r 9 (16 * k + 2) (exec (.binit kk a b p) s) ∧ TakesTrap s r 9 (16 * k + 2) (exec (.barv kk d dc) s)
      ∧ TakesTrap s r 9 (16 * k + 2) (exec (.barb kk a) s) ∧ TakesTrap s r 9 (16 * k + 2) (exec (.bwaitp kk p) s)
      ∧ TakesTrap s r 9 (16 * k + 2) (exec (.btest kk d p sel dc) s) ∧ TakesTrap s r 9 (16 * k + 2) (exec (.bdrop kk) s))
    ∧ (k < s.nbarOf r.t →
      (x.armed = false → count ≤ s.ntidOf r.t → (r.sx b).toNat ≤ 2 ^ 40 →
        after (exec (.binit kk a b p) s) fun y => y.armed = true ∧ y.texp = count ∧ y.bexp = (r.sx b).toNat ∧ y.tarr = 0
          ∧ y.bcred = 0 ∧ y.phase = q ∧ y.arrived = [] ∧ y.dropped = [])
      ∧ (x.armed = true → count ≤ s.ntidOf r.t → (r.sx b).toNat ≤ 2 ^ 40 → count = x.tinit → (r.sx b).toNat = x.bexp →
        q = x.pinit → rests (exec (.binit kk a b p) s))
      ∧ (x.armed = true → fresh → free → x.tarr + n < x.texp → after (exec (.barv kk d dc) s) fun y =>
          y.tarr = x.tarr + n ∧ y.phase = x.phase ∧ y.arrived = x.arrived ++ ths)
      ∧ (x.armed = true → fresh → free → x.tarr + n = x.texp → x.bcred = x.bexp →
          after (exec (.barv kk d dc) s) fun y => finished y x.dropNow)
      ∧ (x.armed = true → fresh → free → x.tarr + n ≤ x.texp → ∀ c, dcOf dc = some c → ∃ t o,
          exec (.barv kk d dc) s = .next t ∧ t.flight = s.flight ++ [(s.nextId, o)] ∧ o.dc = some c
            ∧ o.sout = [(d.toNat, BitVec.ofNat 64 x.phase)])
      ∧ (x.armed = true → fresh → x.tarr + n < x.texp → after (exec (.bdrop kk) s) fun y =>
          y.tarr = x.tarr + n ∧ y.phase = x.phase ∧ y.dropped = x.dropped ++ ths ∧ y.dropNow = x.dropNow + n)
      ∧ (x.armed = true → fresh → x.tarr + n = x.texp → x.bcred = x.bexp →
          after (exec (.bdrop kk) s) fun y => finished y (x.dropNow + n))
      ∧ (x.armed = true → (r.sx a).toNat ≤ 2 ^ 40 → x.bcred + (r.sx a).toNat ≤ x.bexp →
          (x.tarr ≠ x.texp ∨ x.bcred + (r.sx a).toNat ≠ x.bexp) →
          after (exec (.barb kk a) s) fun y => y.bcred = x.bcred + (r.sx a).toNat ∧ y.phase = x.phase ∧ y.tarr = x.tarr)
      ∧ (x.armed = true → (r.sx a).toNat ≤ 2 ^ 40 → x.bcred + (r.sx a).toNat = x.bexp → x.tarr = x.texp →
          after (exec (.barb kk a) s) fun y => finished y x.dropNow)
      ∧ (x.armed = true → phaseDone x.phase q = true → rests (exec (.bwaitp kk p) s))
      ∧ (x.armed = true → phaseDone x.phase q = false → ∃ t, exec (.bwaitp kk p) s = .next t ∧ t.mem = s.mem
          ∧ Blocks t r (.bwaitp k (BitVec.ofNat 64 q)))
      ∧ (x.armed = false → TakesTrap s r 9 (16 * k + 1) (exec (.barv kk d dc) s)
          ∧ TakesTrap s r 9 (16 * k + 1) (exec (.barb kk a) s) ∧ TakesTrap s r 9 (16 * k + 1) (exec (.bwaitp kk p) s)
          ∧ TakesTrap s r 9 (16 * k + 1) (exec (.bdrop kk) s))
      ∧ (Countable r dc → ∃ t, exec (.btest kk d p 0 dc) s = .next t
          ∧ OpIssued s t r (s.nextId + 1) (dcOf dc) fun o => o.sout = [(d.toNat, BitVec.ofNat 64
            (x.phase * 2 ^ 32 + (if phaseDone x.phase q then 2 ^ 31 else 0) + (if x.armed then 2 ^ 11 else 0) + x.tarr))])
      ∧ (Countable r dc → ∃ t, exec (.btest kk d p 1 dc) s = .next t
          ∧ OpIssued s t r (s.nextId + 1) (dcOf dc) fun o => o.sout = [(d.toNat, BitVec.ofNat 64 x.bcred)]))

/-! ### Blocks and skeins -/

/-- A chandler instruction with a free counter completes by issuing its operation with its operands as captured; in a VERSIONED
team that has not the token, one that is held joins the version instead, its status already known, and changes no block or
skein (R345, R347, R348). -/
def Obligations.ChandlerIssue : Prop :=
  ∀ (s : State) (r : Run), s.running = some r → ∀ (f : Ch) (h : Ch3) (pb : Bit), Countable r f.dc → Countable r h.dc →
    (r.t.forming = true → r.t.ver.used + 32 ≤ s.budgetOf r.t) →
    let a := r.sx f.a
    let next := fun (n : SReg) => r.g.sreg (n.toNat + 1)
    let asks := fun (dc : DcField) (d : List Nat) k args o => IssuesOp s r dc
      (fun o => o.work = .chandler k args false ∧ o.sout.map Prod.fst = d) o
    let held := fun (dc : DcField) (d : List Nat) k args o => ∃ t u, o = Host.Outcome.next t
      ∧ OpIssued s t r s.nextId (dcOf dc) (fun o => o.work = .none ∧ o.sout.map Prod.fst = d)
      ∧ dget t.teams r.tid = some u ∧ u.ver.helds = r.t.ver.helds ++ [⟨k, args, s.nextId, opcodeOf r.word⟩] ∧ u.ver.used = r.t.ver.used + 32
      ∧ t.ctxs = s.ctxs
    let either := fun (dc : DcField) (d : List Nat) k args o => if r.t.forming = true then held dc d k args o
      else asks dc d k args o
    let fd := [f.d.toNat]
    let hd := [h.d.toNat]
    asks f.dc fd 0 [a] (exec (.alloc f) s) ∧ either f.dc fd 1 [a] (exec (.free f) s)
    ∧ asks f.dc fd 2 [a] (exec (.sknew f) s)
    ∧ either h.dc hd 3 [r.sx h.a, r.sx h.b, BitVec.ofNat 64 pb.toNat] (exec (.skapp h pb) s)
    ∧ asks f.dc [f.d.toNat, f.d.toNat + 1] 4 [a, next f.a] (exec (.sklook f) s)
    ∧ either h.dc hd 5 [r.sx h.a, r.sx h.b] (exec (.sktrim h) s)
    ∧ either f.dc fd 12 [a] (exec (.sktrimDel f) s)
    ∧ asks f.dc fd 6 [a] (exec (.skclone f) s)
    ∧ either h.dc hd 7 [r.sx h.a, r.sx h.b, next h.b] (exec (.skset h) s)
    ∧ either h.dc hd 8 [r.sx h.a, next h.a, r.sx h.b, next h.b] (exec (.skswap h) s)
    ∧ asks f.dc fd 9 [a] (exec (.refinc f) s) ∧ either f.dc fd 10 [a] (exec (.refdec f) s)
    ∧ asks f.dc fd 11 [a] (exec (.poolq f) s)

/-- CHANDLER_OP_COMPLETE performs the operation of a team that is not VERSIONED as one step on its context, once the accesses
it releases are performed: its result is written and its counter goes down; memory is as before (R345, R346, R350).
References of an ALLOCATED block: refinc returns the count before it and adds one, refdec takes one and frees at zero, free
frees a block of one reference and refuses a shared one; a block that is not ALLOCATED gives status 3 and nothing changes
(R338, R348, R350). sklook writes its pair: the block and, beside it, the row, the generation and whether the block is shared, or a
status alone. For a VERSIONED team alloc, sknew, skclone and refinc are performed at once with the same results, and the version holds
what undoes a refinc; sklook and poolq answer as they do outside a version where it holds no operation (R342, R347, R350). -/
def Obligations.ChandlerCompletes : Prop :=
  (∀ (s : State) (id : Nat) (o : Op) (g : Group) (t : Team) (c : Ctx) (k d : Nat) (args : List DWord),
    dget s.flight id = some o → o.fam = .chandler → o.work = .chandler k args false → o.sout = [(d, 0)] →
    (∀ w ∈ o.waits, s.performed w = true) → dget s.groups o.group = some g → dget s.teams o.team = some t →
    t.versioned = false → dget s.ctxs t.asid = some c →
    let done := c.chandler (fun n => s.arenaFits t.asid n) (o.core / 128) k args
    ∃ s' g', exec (.chandlerOpComplete id) s = .next s' ∧ s'.mem = s.mem ∧ dget s'.ctxs t.asid = some done.1
      ∧ CountedDown s' id o g ∧ dget s'.groups o.group = some g' ∧ g'.sreg d = done.2.getD 0 0)
  ∧ (∀ (s : State) (id : Nat) (o : Op) (g : Group) (t : Team) (c : Ctx) (k : Nat) (args : List DWord) (ds : List Nat),
    dget s.flight id = some o → o.fam = .chandler → o.work = .chandler k args false → o.sout = ds.map (fun d => (d, 0)) →
    ds.Nodup → (∀ w ∈ o.waits, s.performed w = true) → dget s.groups o.group = some g → dget s.teams o.team = some t →
    dget s.ctxs t.asid = some c → (t.forming = true → k = 0 ∨ k = 2 ∨ k = 6 ∨ k = 9 ∨ ((k = 4 ∨ k = 11) ∧ t.ver.helds = [])) →
    let done := c.chandler (fun n => s.arenaFits t.asid n) (o.core / 128) k args
    ∃ s' g' u, exec (.chandlerOpComplete id) s = .next s' ∧ s'.mem = s.mem ∧ CountedDown s' id o g
      ∧ dget s'.ctxs t.asid = some (if t.forming = true ∧ (k = 4 ∨ k = 11) then c else done.1)
      ∧ dget s'.groups o.group = some g' ∧ (∀ n i, ds[i]? = some n → g'.sreg n = done.2.getD i 0)
      ∧ dget s'.teams o.team = some u
      ∧ (t.forming = true → k = 9 → (done.2.getD 0 0).toNat < 2 ^ 56 → ⟨10, args, id, opcodeOf o.word⟩ ∈ u.ver.undo))
  ∧ (∀ (c : Ctx) (fits : Nat → Bool) (die : Nat) (x p : DWord),
    let id := x.toNat % 2 ^ 16
    (dget c.skeins id = none → c.chandler fits die 4 [x, p] = (c, [0, statusWord 4 0]))
    ∧ ∀ k, dget c.skeins id = some k → ∀ st i row, k.map p.toNat = (st, i, row) →
        (st ≠ 0 → c.chandler fits die 4 [x, p] = (c, [0, statusWord st (k.gen % 2 ^ 32)]))
        ∧ (st = 0 → c.chandler fits die 4 [x, p] = (c, [BitVec.ofNat 64 (k.entry i), statusWord 0
            ((if ∃ d, c.block (k.entry i) = some d ∧ 1 < d.ref then 2 ^ 55 else 0) + row * 2 ^ 32 + k.gen % 2 ^ 32)])))
  ∧ (∀ (c : Ctx) (fits : Nat → Bool) (die : Nat) (va : DWord),
    (∀ d, c.block va.toNat = some d →
      (d.ref < 2 ^ 32 - 1 → (c.chandler fits die 9 [va]).2 = [BitVec.ofNat 64 d.ref]
        ∧ dget (c.chandler fits die 9 [va]).1.blocks va.toNat = some { d with ref := d.ref + 1 })
      ∧ (1 < d.ref → d.ref < 2 ^ 32 → (c.chandler fits die 10 [va]).2 = [BitVec.ofNat 64 d.ref]
        ∧ dget (c.chandler fits die 10 [va]).1.blocks va.toNat = some { d with ref := d.ref - 1 })
      ∧ (d.ref = 1 → ∃ x, dget (c.chandler fits die 10 [va]).1.blocks va.toNat = some x ∧ x.ref = 0 ∧ x.alloc = false)
      ∧ (1 < d.ref → c.chandler fits die 1 [va] = (c, [statusWord 9 0]))
      ∧ (d.ref = 1 → (c.chandler fits die 1 [va]).2 = [statusWord 0 0]
        ∧ ∃ x, dget (c.chandler fits die 1 [va]).1.blocks va.toNat = some x ∧ x.ref = 0 ∧ x.alloc = false))
    ∧ (c.block va.toNat = none → c.chandler fits die 1 [va] = (c, [statusWord 3 0])
      ∧ c.chandler fits die 9 [va] = (c, [statusWord 3 0]) ∧ c.chandler fits die 10 [va] = (c, [statusWord 3 0])))

/-- Position p of a skein maps to an entry, or is BEYOND or STALE, by the rule of map(p) (R342). -/
def Obligations.SkeinMap : Prop :=
  ∀ (k : Skein) (p : Nat),
    (p < k.ns * k.tpb → k.nb ≤ p / k.tpb → (k.map p).1 = 6)
    ∧ (p < k.ns * k.tpb → p / k.tpb < k.nb → k.map p = (0, p / k.tpb, p % k.tpb))
    ∧ (k.ns * k.tpb ≤ p → k.nb - k.ns ≤ (p - k.ns * k.tpb) / k.tpb → (k.map p).1 = 6)
    ∧ (k.ns * k.tpb ≤ p → (p - k.ns * k.tpb) / k.tpb < k.nb - k.ns → (p - k.ns * k.tpb) / k.tpb < k.old → (k.map p).1 = 5)
    ∧ (k.ns * k.tpb ≤ p → (p - k.ns * k.tpb) / k.tpb < k.nb - k.ns → k.old ≤ (p - k.ns * k.tpb) / k.tpb →
        k.map p = (0, k.ns + (p - k.ns * k.tpb) / k.tpb % k.win, (p - k.ns * k.tpb) % k.tpb))

/-- A block that has been appended is found at each of its positions, row by row, in a linear skein and in a ring, whatever was
appended before; a full linear skein takes none (R342, R343). -/
def Obligations.AppendedBlockIsFound : Prop :=
  ∀ (k : Skein) (va : Nat), 0 < k.win → 0 < k.tpb → k.old ≤ k.nb - k.ns →
    (k.append va = none ↔ k.ring = false ∧ k.ns ≤ k.nb ∧ k.nb - k.ns = k.win)
    ∧ ∀ k' old first, k.append va = some (k', old, first) →
        first = k.nb * k.tpb ∧ k'.nb = k.nb + 1 ∧ k'.old ≤ k'.nb - k'.ns
        ∧ ∀ t < k.tpb, ∃ i, k'.map (first + t) = (0, i, t) ∧ k'.entry i = va

/-! ### Hoops and versions -/

/-- asdecl issues with its region; asdrop removes a region none of whose granules is held and returns a status; asqry returns
the granule and who holds it; vstat returns the standing of the team's own version (R366 to R371). -/
def Obligations.HoopInstructions : Prop :=
  ∀ (s : State) (r : Run), s.running = some r → ∀ (f : Ch) (h : Ch3) (d : SReg) (dc : DcField), Countable r f.dc →
    Countable r h.dc → Countable r dc →
    let i := (r.sx f.a).toNat % 64
    let va := (r.sx f.a).toNat
    let gives := fun (dc : DcField) (d : Nat) (x : DWord) o => IssuesOp s r dc (fun o => o.sout = [(d, x)]) o
    let v := r.t.ver
    IssuesOp s r h.dc (fun o => o.work = .asdecl r.t.forming (r.sx h.a).toNat ((r.sx h.b).toNat % 2 ^ 56) ((r.sx h.b).toNat / 2 ^ 56)
      ∧ o.sout = [(h.d.toNat, 0)]) (exec (.asdecl h) s)
    ∧ (r.t.forming = true → gives f.dc f.d.toNat (statusWord 4 0) (exec (.asdrop f) s))
    ∧ (r.t.forming = false → (dget s.ctxs r.t.asid).bind (fun c => dget c.regions i) = none →
        gives f.dc f.d.toNat (statusWord 6 0) (exec (.asdrop f) s))
    ∧ (r.t.forming = false → ∀ c rg, dget s.ctxs r.t.asid = some c → dget c.regions i = some rg →
        (s.regionBusy r.t.asid rg = true → gives f.dc f.d.toNat (statusWord 5 0) (exec (.asdrop f) s))
        ∧ (s.regionBusy r.t.asid rg = false → ∃ t c', exec (.asdrop f) s = .next t
          ∧ OpIssued s t r s.nextId (dcOf f.dc) (fun o => o.sout = [(f.d.toNat, statusWord 0 0)])
          ∧ dget t.ctxs r.t.asid = some c' ∧ ∀ n, dget c'.regions n = if n = i then none else dget c.regions n))
    ∧ (s.regionAt r.t.asid va = none →
        IssuesOp s r f.dc (fun o => o.sout = [(f.d.toNat, 0), (f.d.toNat + 1, 0)]) (exec (.asqry f) s))
    ∧ (∀ n rg, s.regionAt r.t.asid va = some (n, rg) →
        let gb := va - (va - rg.base) % 2 ^ (6 + rg.g)
        let hold := match (s.slice (homeOf r.t.asid gb)).hoop r.t.asid gb with
          | none => 1
          | some x => if x.team = r.tid then 2 else 3
        IssuesOp s r f.dc (fun o => o.sout = [(f.d.toNat, BitVec.ofNat 64 gb),
          (f.d.toNat + 1, BitVec.ofNat 64 (hold * 2 ^ 54 + rg.g * 2 ^ 50 + n))]) (exec (.asqry f) s))
    ∧ (r.t.versioned = false → gives dc d.toNat 0 (exec (.vstat d dc) s))
    ∧ (r.t.versioned = true → v.used < 2 ^ 21 → IssuesOp s r dc (fun o => ∃ x : DWord, o.sout = [(d.toNat, x)]
        ∧ x.getLsbD 63 = v.irrevocable ∧ x.getLsbD 62 = v.tokenWait ∧ x.toNat % 2 ^ 21 = v.used
        ∧ x.toNat / 2 ^ 32 % 2 ^ 24 = min (s.hoopsOf r.tid) 0xFFFFFF) (exec (.vstat d dc) s))

/-- ASDECL_DECLARE enters the region under the lowest free index and returns it, or returns the status of what is wrong with it, for
an asdecl issued in a version or not, and changes nothing (R353, R354, R367, R368). -/
def Obligations.RegionIsDeclared : Prop :=
  ∀ (s : State) (id : Nat) (o : Op) (g : Group) (t : Team) (c : Ctx) (inVersion : Bool) (base size gr d : Nat),
    dget s.flight id = some o → o.work = .asdecl inVersion base size gr → o.sout = [(d, 0)] →
    (∀ w ∈ o.waits, s.performed w = true) → dget s.groups o.group = some g → dget s.teams o.team = some t →
    dget s.ctxs t.asid = some c →
    (c.asdeclStatus inVersion base size gr ≠ 0 → ∃ s' g', exec (.asdeclDeclare id) s = .next s' ∧ s'.mem = s.mem ∧ s'.ctxs = s.ctxs
      ∧ CountedDown s' id o g ∧ dget s'.groups o.group = some g' ∧ g'.sreg d = statusWord (c.asdeclStatus inVersion base size gr) 0)
    ∧ (c.asdeclStatus inVersion base size gr = 0 → s.versionIn t.asid base size = false →
      ∀ n < 64, (∀ j < n, dget c.regions j ≠ none) → dget c.regions n = none →
      ∃ s' g' c', exec (.asdeclDeclare id) s = .next s' ∧ s'.mem = s.mem ∧ dget s'.ctxs t.asid = some c'
        ∧ dget c'.regions n = some ⟨base, size, gr⟩ ∧ (∀ j, j ≠ n → dget c'.regions j = dget c.regions j)
        ∧ CountedDown s' id o g ∧ dget s'.groups o.group = some g' ∧ g'.sreg d = statusWord 0 n)

/-- A version's life: a version of one sector becomes committed memory at the commit point, and the team's hoops set out to be
released; a wound stops a running team and drops its work in flight, and has no effect on one that is irrevocable; the version is
then discarded with memory as before; the team restarts with its groups at their entry, with one more restart and its window zero;
a release frees a granule that no one waits for at its slice (R137, R245, R356, R359, R360, R363). A free token is received by the
team that asks; the grant commits its version, and a COMMITTING team runs on as irrevocable (R364). When each of these steps may come,
and that a commit waits for pages on the move, is the model's reading (logs 32, 33, 54). -/
def Obligations.VersionLife : Prop :=
  (∀ (s : State) (tid : Nat) (t : Team), dget s.teams tid = some t →
    (∀ x b p, t.st = .committing → t.ver.st = .committing → s.opsOf tid = [] →
        (∀ e ∈ s.groupsOf tid, e.2.batches = [] ∧ e.2.asyncTraps = [] ∧ e.2.pendStops = []) →
        s.inOrder tid = true → s.commitClear tid = true → t.ver.sectors = [x] → t.ver.recs = [] → t.ver.helds = [] → t.pendLate = [] →
        (dget s.ctxs x.asid).bind (fun c => c.pageAt x.va) = some (b, p) →
        ∃ s' t', exec (.commitPoint tid) s = .next s' ∧ dget s'.teams tid = some t' ∧ t'.ver.st = .committed
          ∧ t'.ver.sectors = []
          ∧ s'.mem = x.bytes.foldl (fun m e => m.write (p.frame + (e.1 - b)) e.2) s.mem
          ∧ ∀ n, (∀ y ∈ (s'.slice n).hoops, y.team = tid → y.leaving = true))
    ∧ (∀ aux age rest, t.wounds = (aux, age) :: rest →
        (t.ver.irrevocable = true → ∃ s' t', exec (.woundArrival tid) s = .next s' ∧ s'.mem = s.mem ∧ s'.flight = s.flight
          ∧ dget s'.teams tid = some t' ∧ t' = { t with wounds := rest })
        ∧ (t.ver.irrevocable = false → s.pk.tokenHolder ≠ some tid → t.st = .running → ∃ s' t', exec (.woundArrival tid) s = .next s' ∧ s'.mem = s.mem
          ∧ dget s'.teams tid = some t' ∧ t'.st = .wounded ∧ t'.wounds = rest ∧ s'.opsOf tid = []
          ∧ ∀ n, n ≠ tid → dget s'.teams n = dget s.teams n))
    ∧ (t.st = .wounded → t.ver.st ≠ .discarded → t.versioned = true → t.ver.st ≠ .committed → t.ver.undo = [] →
        ∃ s' t', exec (.versionDiscardDone tid) s = .next s' ∧ s'.mem = s.mem ∧ dget s'.teams tid = some t'
          ∧ t'.ver.st = .discarded ∧ t'.ver.sectors = [] ∧ t'.ver.helds = [] ∧ t'.ver.recs = [])
    ∧ (∀ k, t.st = .wounded → t.ver.st = .discarded → t.releases = 0 → dget s.kernels t.kernel = some k →
        t.restarts < 2 ^ 32 - 1 → (s.restartSlots tid t).length = k.field 364 360 + 1 →
        ∃ s' t', exec (.teamRestart tid) s = .next s' ∧ dget s'.teams tid = some t' ∧ t'.st = .running
          ∧ t'.restarts = t.restarts + 1 ∧ t'.age = t.age ∧ t'.ver.st = .forming ∧ t'.barriers = [] ∧ t'.handles = []
          ∧ (∀ n < k.field 364 360 + 1, dget s'.groups (s.nextId + n)
              = some (k.freshGroup tid t.lid t.core n ((s.restartSlots tid t).getD n 0)))
          ∧ ∀ a, s'.mem.read a =
              if scratchKey t.core t.wbase ≤ a ∧ a < scratchKey t.core t.wbase + t.wsize then 0 else s.mem.read a)
    ∧ (∀ n h, (s.slice n).hoops = [h] → h.leaving = true → h.team = tid → h.held = [] → h.inOverflow = false →
        (s.slice n).starved = [] →
        ∃ s' t', exec (.hoopReleaseArrival n) s = .next s' ∧ s'.mem = s.mem ∧ (s'.slice n).hoops = []
          ∧ dget s'.teams tid = some t' ∧ t'.releases = t.releases - 1))
  ∧ (∀ (s : State) (tid : Nat) (t : Team), dget s.teams tid = some t → s.pk.tokenHolder = none →
    (s.askToken tid).pk.tokenHolder = some tid)
  ∧ (∀ (s : State) (tid : Nat) (t : Team), s.teams = [(tid, t)] → s.pk.tokenHolder = some tid → t.ver.irrevocable = false →
    t.st = .committing → s.flight = [] → t.ver.sectors = [] → t.ver.recs = [] → t.ver.helds = [] → t.pendLate = [] →
    ∃ s' t', exec .tokenGrant s = .next s' ∧ s'.mem = s.mem ∧ s'.pk.tokenHolder = some tid
      ∧ dget s'.teams tid = some t' ∧ t'.ver.irrevocable = true ∧ t'.ver.st = .committed ∧ t'.st = .running
      ∧ t'.ver.tokenWait = false)

/-! ### System registers and tracing -/

/-- srd returns each special register, swr writes FTZ alone, and tmark adds a record of its code and operand to the trace ring
of the core; nothing else changes (R28, R30, R225, R226). -/
def Obligations.SystemInstructions : Prop :=
  ∀ (s : State) (r : Run), s.running = some r → ∀ (d : Reg7) (a : Reg7) (b : SReg) (n : BitVec 8) (code : BitVec 16),
    let reads := fun (n : Nat) (x : Nat) => ScalOut s r d (BitVec.ofNat 64 x) (exec (.srd d (BitVec.ofNat 8 n)) s)
    VecOut s r d (fun l => BitVec.ofNat 32 l) (exec (.srd d 0) s)
    ∧ VecOut s r d (fun l => BitVec.ofNat 32 (r.g.tid.getD l 0)) (exec (.srd d 1) s)
    ∧ reads 2 r.g.grp ∧ reads 3 r.g.role ∧ reads 4 r.t.lid ∧ reads 5 (s.ntidOf r.t) ∧ reads 6 s.pk.gts
    ∧ reads 7 r.t.age.toNat ∧ reads 8 r.t.restarts ∧ reads 9 r.t.asid ∧ reads 0x0A r.t.core
    ∧ reads 0x0B (r.t.core / 4 % 16) ∧ reads 0x0C (r.t.core / 64) ∧ reads 0x0D r.t.wbase ∧ reads 0x0E r.t.wsize
    ∧ reads 0x0F r.g.fmode.toNat ∧ reads 0x20 (s.cyc1000 r.t.core / 1000)
    ∧ reads 0x21 (dgetD (s.core r.t.core).issued r.t.asid 0) ∧ reads 0x22 (s.lostloc r.t.core r.t.asid)
    ∧ reads 0x23 (if s.memAllowed r.g r.t then 1 else 0) ∧ reads 0x24 (r.pritok s)
    ∧ (∃ t, exec (.swr a n) s = .next t ∧ OnlyGroup s t r.gid { r.g with fmode := BitVec.ofNat 32 ((r.sc a).toNat % 2) })
    ∧ (∃ t x, exec (.tmark b code) s = .next t ∧ t = { s with cores := t.cores }
        ∧ (t.core r.g.core).trace.getLast? = some x
        ∧ x.toNat % 2 ^ 64 = code.toNat * 2 ^ 48 + (r.sx b).toNat % 2 ^ 48 ∧ x.toNat / 2 ^ 106 % 2 ^ 6 = 9
        ∧ x.toNat / 2 ^ 112 = r.t.asid % 2 ^ 16)

/-! ### Groups and splits -/

/-- CLAUSE_FETCH of a group whose pick stands at a clause boundary: a clause that passes the check is entered, its words and the
address after it, and waits for the counters its header names; a header that fails the check traps with BAD_CLAUSE, and
registers and memory stay as they are (R31 to R33, R141, R142). -/
def Obligations.ClauseFetch : Prop :=
  ∀ (s : State) (gid : Nat) (g g1 : Group) (t : Team) (k : Kernel) (i : Nat), dget s.groups gid = some g →
    dget s.teams g.team = some t → dget s.kernels t.kernel = some k → g.run = none → g.fetching = false →
    s.mayFetch g t = true →
    g.pick = (g1, some i) → (g1.split i).atBoundary = true → i < g.splits.length →
    let x := (g1.merge i).1
    let j := (g1.merge i).2
    let sp := x.split j
    let h := s.codeWord k sp.pc
    let n := hdrCount h
    let words := (List.range n).map fun m => s.codeWord k (sp.pc + 4 * (m + 1))
    s.fetchCause t sp.doom sp.pc = 0 → s.farSector k sp.pc 4 = none → s.farSector k sp.pc (4 * (n + 1)) = none →
    (hdrOk h = true → s.fetchCause t sp.doom (sp.pc + 4 * n) = 0 →
      walkClause (s.mapOf t.asid) (hdrClass h) (k.granules g.role) 16 1 words = none →
      (∀ y ∈ sectorsOf sp.pc (4 * (n + 1)), s.heldAt g.team t .fetch y 64 = none) →
      (hdrClass h = 3 → (s.setGroup gid x).memAllowed x t = true) →
      ∃ s' g', exec (.clauseFetch gid) s = .next s' ∧ s'.mem = s.mem ∧ dget s'.groups gid = some g' ∧ g'.v = g.v
        ∧ g'.s = g.s ∧ (g'.split j).hdr = sp.pc ∧ (g'.split j).words = words ∧ (g'.split j).nxt = 0
        ∧ (g'.split j).pc = (sp.pc + 4 * (n + 1)) % 2 ^ 64 ∧ (g'.split j).sw = h.getLsbD 18
        ∧ (g'.split j).st = if g.waitMet (hdrWait h) = true then .ready else .blocked (.header (hdrWait h)))
    ∧ (hdrOk h = false → ∃ s' t' tr, exec (.clauseFetch gid) s = .next s' ∧ s'.mem = s.mem
        ∧ dget s'.teams g.team = some t' ∧ t'.st = .halting ∧ t'.traps = t.traps ++ [tr] ∧ tr.code = 3 ∧ tr.hdr = sp.pc
        ∧ tr.idx = 0 ∧ tr.word = h)

/-- The steps of groups of a team that runs: the deferred trap names the one cause recorded; the trap of a failed asynchronous
credit is taken; spilling lanes leave for the bins of their core, and their split waits for the write; a split that waits for a bin
is READY to issue its BRD again, with the lanes it took, where a slot has become FREE; once the lanes are written their split is READY; a bin closes when 512 cycles have passed since it opened;
a closed bin, alone on its core, becomes a foster group in a slot that its team keeps; a stood-down group returns to a slot that
its team keeps; a line of the register store is loaded; and the memory cap is set by the sum of the core's scores, with the groups
that it admits, and every score of the core is halved (R145 to R149, R153, R154, R159, R279, R377). Whose scores count on a core, and
which bins and slots a team that moves has, is the model's reading (logs 24, 53). -/
def Obligations.GroupSteps : Prop :=
  ∀ (s : State) (gid slot : Nat) (g : Group) (t : Team) (k : Kernel), dget s.groups gid = some g →
    dget s.teams g.team = some t → dget s.kernels t.kernel = some k → t.st = .running →
    (∀ c, g.st = .live → s.faultsDue g = true → g.atBoundaries = true → g.causes = [c] → c.lane < 32 →
      c.cause < 16 →
      ∃ s' t' tr, exec (.laneFaultTimeout gid) s = .next s' ∧ s'.mem = s.mem ∧ dget s'.teams g.team = some t'
        ∧ t'.st = .halting ∧ t'.traps = t.traps ++ [tr] ∧ tr.code = 12 ∧ tr.detail = c.cause ∧ tr.hdr = c.hdr
        ∧ tr.idx = c.idx ∧ tr.word = c.word ∧ tr.causev = c.cause * 2 ^ (4 * c.lane))
    ∧ (∀ tr, g.st = .live → g.atBoundaries = true → g.asyncTraps = [tr] → g.pendStops = [] →
      ∃ s' t' x, exec (.asyncCreditTrap gid) s = .next s' ∧ s'.mem = s.mem ∧ dget s'.teams g.team = some t'
        ∧ t'.st = .halting ∧ x ∈ t'.traps ∧ x.code = tr.code ∧ x.detail = tr.detail ∧ x.causev = tr.causev)
    ∧ (∀ lanes target c, g.st = .live → slot < g.splits.length → (g.split slot).st = .blocked (.spilling lanes target) →
      g.marked = 0 → g.waitMet 0x3F = true → s.releasable gid = [] → (g.split slot).mask &&& ~~~lanes ≠ 0 →
      (∀ e ∈ s.cores, e.1 ≠ t.core → ∀ b ∈ e.2.bins, b.2.team ≠ g.team) →
      (s.core t.core).binThreads (s.cyc1000 t.core) (k.field 364 360 + 1)
        ⟨g.team, g.role, target, g.s, g.fmode, [], 0, none, (g.split slot).past.filter fun w => (dget s.flight w).isSome⟩
        ((lanesOf lanes).map fun l => (g.tid.getD l 0, g.threadRegs l (k.granules g.role))) = some c →
      ∃ s' g', exec (.spill gid slot) s = .next s' ∧ s'.mem = s.mem ∧ dget s'.groups gid = some g'
        ∧ (g'.split slot).st = .blocked .spillWrite ∧ (g'.split slot).mask = (g.split slot).mask &&& ~~~lanes
        ∧ g'.spilled = g.spilled ||| lanes ∧ (s'.core t.core).bins = c.bins)
    ∧ (∀ lanes target, g.st = .live → slot < g.splits.length →
      (g.split slot).st = .blocked (.spillWait lanes target) → g.freeSlot ≠ none →
      ∃ s' g', exec (.spill gid slot) s = .next s' ∧ s'.mem = s.mem ∧ dget s'.groups gid = some g' ∧ g'.v = g.v ∧ g'.s = g.s
        ∧ (g'.split slot).st = .ready ∧ (g'.split slot).nxt = (g.split slot).pos ∧ (g'.split slot).brd = lanes
        ∧ (g'.split slot).mask = (g.split slot).mask)
    ∧ (slot < g.splits.length → (g.split slot).st = .blocked .spillWrite →
      ∃ s', exec (.spillWriteDone gid slot) s = .next s' ∧ s'.mem = s.mem ∧ Wakes s' gid slot g)
    ∧ (∀ core n b, dget (s.core core).bins n = some b → b.team = g.team → b.closed = none →
      b.opened1000 + 512000 ≤ s.cyc1000 core →
      ∃ s', exec (.binCloseTimeout core n) s = .next s' ∧ s' = { s with cores := s'.cores }
        ∧ dget (s'.core core).bins n = some { b with closed := some (s.cyc1000 core) })
    ∧ (∀ core n b at' num m, (s.core core).bins = [(n, b)] → b.team = g.team → b.closed = some at' →
      s.leaving g.team t = false → s.fosterNumber g.team = some num → s.keptSlot g.team = some m → s.standingBy t.core (some g.team) = false →
      ∃ s', exec (.fosterGroupForm core n) s = .next s' ∧ s'.mem = s.mem ∧ (s'.core core).bins = []
        ∧ dget s'.groups s.nextId = some (b.foster t.core num m false))
    ∧ (∀ n, g.st = .stoodDown → s.keptSlot g.team = some n → ∃ s' g', exec (.stoodDownReturn gid) s = .next s'
        ∧ s'.mem = s.mem ∧ dget s'.groups gid = some g' ∧ g'.slot = n ∧ g'.v = g.v ∧ g'.s = g.s ∧ g'.st ≠ .stoodDown)
    ∧ (∀ line, line ∈ g.toLoad → ∃ s', exec (.registerStoreFill gid line) s = .next s'
        ∧ OnlyGroup s s' gid { g with toLoad := g.toLoad.filter (· != line) })
    ∧ (∀ core, (s.core core).capAt1000 + 1024000 ≤ s.cyc1000 core →
      let cap := memcapOf (min (2 ^ 32 - 1) ((s.groups.filter fun e => e.2.core == core && s.scored e.2).foldl (fun n e => n + e.2.score) 0))
      ∃ s', exec (.memcapUpdate core) s = .next s' ∧ s'.mem = s.mem ∧ (s'.core core).memcap = cap
        ∧ (g.core ≠ core → dget s'.groups gid = some g)
        ∧ (g.core = core → t.offCore = false → s.onCore core g = true → dget s'.groups gid = some { g with
            score := g.score / 2, memOk := some (decide (s.memRank g t.age.toNat < cap)) }))

/-! ### Fault records and pages -/

/-- The steps of a fault on a page not present. The sieve emits its one record, with the time stamp of the first emission of its
instruction: with cause 1 it stays, and with another it goes to the team's records and to the end of the context's fault log. It
opens the entry of its page in the riddle, or joins the one there, where the riddle forwards it to the MP. The MP takes the fault
of a page in the slow tier, which enters FAULTING. A wake makes the parked splits of a group that wait for the page READY, where
their team neither halts nor is wounded; else they stay parked (R143, R258 to R262, R391). -/
def Obligations.PageFaultSteps : Prop :=
  ∀ (s : State) (core : Nat),
    (∀ r, (s.core core).sieve = [r] → r.emitted = false →
      let rcd := { r.rcd with gts := if r.stamped = true then r.rcd.gts else s.pk.gts }
      (r.rcd.cause = 1 → ∃ t, exec (.sieveEmit core) s = .next t ∧ t = { s with cores := t.cores }
        ∧ (t.core core).sieve = [{ r with emitted := true, stamped := true, rcd := rcd }])
      ∧ (r.rcd.cause ≠ 1 → ∀ g u, dget s.groups r.group = some g → dget s.teams g.team = some u →
        ∃ t, exec (.sieveEmit core) s = .next t ∧ t = { s with cores := t.cores, teams := t.teams, ctxs := t.ctxs }
        ∧ (t.core core).sieve = [] ∧ dget t.teams g.team = some { u with faults := u.faults ++ [rcd] }
        ∧ ∀ c, dget s.ctxs r.rcd.asid = some c → ∃ c', dget t.ctxs r.rcd.asid = some c' ∧ c'.faultLog.getLast? = some rcd))
    ∧ (∀ x r, s.cores = [(core, x)] → x.sieve = [r] → r.emitted = true → r.rcd.cause = 1 →
      let cl := s.cluster (clusterOf core)
      ((∀ e ∈ cl.riddle, e.page ≠ r.page) → cl.riddle.length < 64 →
        ∃ t, exec (.riddleRecord (clusterOf core)) s = .next t ∧ t = { s with cores := t.cores, clusters := t.clusters }
          ∧ (t.core core).sieve = []
          ∧ (t.cluster (clusterOf core)).riddle
              = cl.riddle ++ [⟨{ r.rcd with merged := true, mask := 1 }, r.page, [core], false⟩])
      ∧ (∀ e, cl.riddle = [e] → e.page = r.page →
        ∃ t, exec (.riddleRecord (clusterOf core)) s = .next t ∧ t = { s with cores := t.cores, clusters := t.clusters }
          ∧ (t.core core).sieve = []
          ∧ (t.cluster (clusterOf core)).riddle = [{ e with
              rcd := { e.rcd with mask := e.rcd.mask + 1, acc := e.rcd.acc ||| r.rcd.acc }
              cores := if core ∈ e.cores then e.cores else e.cores ++ [core] }]))
    ∧ (∀ n e, (s.cluster n).riddle = [e] → e.forwarded = false →
      ∃ t, exec (.riddleForward n) s = .next t ∧ t = { s with clusters := t.clusters, mp := t.mp }
        ∧ t.mp = { s.mp with faults := s.mp.faults ++ [(e.page, e.rcd)] }
        ∧ (t.cluster n).riddle = [{ e with forwarded := true }])
    ∧ (∀ asid va f rest c p, s.mp.faults = (pageId asid va, f) :: rest → va < 2 ^ 64 → dget s.ctxs asid = some c →
      dget c.pages va = some p → p.st = .remote → p.back = 1 →
      ∃ t, exec .mpFaultAccept s = .next t ∧ t = { s with ctxs := t.ctxs, mp := { s.mp with faults := rest } }
        ∧ PageBecomes s t asid va { p with st := .faulting })
    ∧ (∀ asid va cause gid g i u, (s.core core).wakes = [(asid, va, cause)] → s.groups = [(gid, g)] → dget s.teams g.team = some u →
      u.heldBy core = true → g.st = .live → g.marked = 0 → i < g.splits.length → (g.split i).st = .parked →
      pageId asid va ∈ (g.split i).pages →
      ∃ t g', exec (.coreWake core asid va) s = .next t ∧ t.mem = s.mem ∧ (t.core core).wakes = []
        ∧ dget t.groups gid = some g' ∧ g'.v = g.v ∧ g'.s = g.s ∧ g'.dc = g.dc
        ∧ (g'.split i).st = if u.st = .halting ∨ u.st = .wounded then .parked else .ready)

/-- The states of a page on the move, where nothing waits for it. A promotion begins on the frame the MP finds. It ends with the slow
tier's bytes in the frame and the page RESIDENT on it, or, on an error answer or a timeout, with the page REMOTE. A migration to
the frame found on a stack begins, and ends with the bytes in the new frame; an eviction ends with them in the slow tier. A frame
given up reads as zero where no other page holds it. The heat of a page halves. A PG_EVICT that waited for its eviction is
answered, and a PG_UNMAP that waited for versions takes effect (R253, R255, R263, R264, R266). -/
def Obligations.PageMoves : Prop :=
  ∀ (s : State) (asid va : Nat) (c : Ctx) (p : Page), dget s.ctxs asid = some c → dget c.pages va = some p → s.mem.wf →
    (∀ f, p.mayPromote = true → s.frameFor s.frames (p.ask asid va) = some f →
      ∃ t, exec (.promotionStart asid va) s = .next t ∧ t.mem = s.mem
        ∧ PageBecomes s t asid va { p with st := .promoting, newFrame := f, since := s.pk.gts, due := false })
    ∧ (p.st = .promoting → s.slowDown p = false → p.waiters = [] →
      ∃ t, exec (.promotionDone asid va) s = .next t ∧ Copies s t p.slowBase p.newFrame p.bytes
        ∧ PageBecomes s t asid va { p with st := .resident, frame := p.newFrame, due := false }
        ∧ ∀ e ∈ t.clusters, ∀ r ∈ e.2.riddle, r.page ≠ pageId asid va)
    ∧ (p.st = .promoting → p.waiters = [] → ∃ t, exec (.promotionFail asid va) s = .next t
        ∧ GivesUp s t p.newFrame p.bytes ∧ PageBecomes s t asid va { p with st := .remote })
    ∧ (p.st = .promoting → p.waiters = [] →
      s.slowDown p = true ∨ p.since + ((p.slowPort.map fun i => (s.port i).timeoutUs).getD 1000) * 1000 ≤ s.pk.gts →
      ∃ t, exec (.promotionTimeout asid va) s = .next t
        ∧ GivesUp s t p.newFrame p.bytes ∧ PageBecomes s t asid va { p with st := .remote })
    ∧ (∀ stack f, p.st = .resident → p.pinned = false → stack < 24 →
      s.frameFor s.frames ⟨stack, 0, p.bytes, p.mset, true⟩ = some f →
      ∃ t, exec (.mpMigration asid va stack) s = .next t ∧ t.mem = s.mem
        ∧ PageBecomes s t asid va { p with st := .migrating, newFrame := f, newMset := p.mset })
    ∧ (p.st = .migrating → p.hold = [] → p.frame + p.bytes ≤ p.newFrame ∨ p.newFrame + p.bytes ≤ p.frame →
      ∃ t, exec (.migrationDone asid va) s = .next t
        ∧ PageBecomes s t asid va { p with st := .resident, frame := p.newFrame, mset := p.newMset }
        ∧ (∀ i < p.bytes, t.mem.read (p.newFrame + i) = s.mem.read (p.frame + i))
        ∧ (FrameFree t p.frame → ∀ i < p.bytes, t.mem.read (p.frame + i) = 0)
        ∧ ∀ a, ¬(p.frame ≤ a ∧ a < p.frame + p.bytes) → ¬(p.newFrame ≤ a ∧ a < p.newFrame + p.bytes) →
            t.mem.read a = s.mem.read a)
    ∧ (p.st = .evicting → p.hold = [] → p.frame + p.bytes ≤ p.slowBase →
      ∃ t, exec (.evictionDone asid va) s = .next t ∧ PageBecomes s t asid va { p with st := .remote, due := false }
        ∧ (∀ i < p.bytes, t.mem.read (p.slowBase + i) = s.mem.read (p.frame + i))
        ∧ (FrameFree t p.frame → ∀ i < p.bytes, t.mem.read (p.frame + i) = 0)
        ∧ ∀ a, ¬(p.frame ≤ a ∧ a < p.frame + p.bytes) → ¬(p.slowBase ≤ a ∧ a < p.slowBase + p.bytes) →
            t.mem.read a = s.mem.read a)
    ∧ (s.mp.heatAt + 1048576 ≤ s.pk.gts → ∃ t c', exec .heatDecay s = .next t ∧ t.mem = s.mem
        ∧ t.mp = { s.mp with heatAt := s.mp.heatAt + 1048576 } ∧ dget t.ctxs asid = some c'
        ∧ dget c'.pages va = some { p with heat := p.heat / 2 })
    ∧ (∀ w, s.mp.waiting = [w] → s.roomToPost = true → c.walk 1 va = some [(va, p)] →
      (w.stage = .evicting → w.cmd = .evict asid va 1 → p.st ≠ .evicting →
        ∃ t, exec (.pageCommandEffect w.id) s = .next t ∧ t.mem = s.mem ∧ t.ctxs = s.ctxs ∧ t.mp.waiting = []
          ∧ Answers { s with tag := w.tag } t 0 [] [])
      ∧ (w.stage = .versions → w.cmd = .unmap asid va 1 → p.st = .resident → p.hold = [] → p.waiters = [] →
        s.pageVersioned asid va p = false →
        ∃ t, exec (.pageCommandEffect w.id) s = .next t ∧ t.mp.waiting = [] ∧ GivesUp s t p.frame p.bytes
          ∧ (dget t.ctxs asid).bind (fun c => dget c.pages va) = none ∧ Answers { s with tag := w.tag } t 0 [] []))

/-! ### Placement and the ends of teams and kernels -/

/-- A distributor takes the first record of its search where that has no edges and its time has come: the record leaves its
segment, and the kernel enters DISPATCHING; it places the kernel's next team on the core that its search finds, with its window
zero and its groups at their entry in the lowest free slots; or it resumes the team that its search finds, on the core found, where
no line of its ASID stays in the L1 of another core than before. A window is copied out, and one that is being copied in is there; a
barrier entry, and the bank, of a team away make room; a team asked to leave, or one that has waited long, leaves its core (R46,
R113, R114, R116, R124 to R127, R157 to R160, R247, R281, R315). That a record is taken in the step that finds it, the cycle of a search
and of a placement, the lowest free group slots, and that the granules of a window copied out read as zero, are the model's choices (logs
30, 36, 58). -/
def Obligations.PlacementSteps : Prop :=
  ∀ (s : State) (cluster : Nat), cluster < 8 →
    (∀ kid k ptr rest a q sl c x, (s.dist cluster).kernels.length < 4 →
      (s.dist cluster).searchedAt ≠ some (fixedCycle s.pk.gts) → s.searchOrder cluster = (kid, ptr) :: rest →
      dget s.kernels kid = some k → k.st = .enqueued → k.edges = none → k.field 595 592 = 0 → k.field 255 192 ≤ s.pk.gts →
      k.src = .segment a q sl → dget s.ctxs a = some c → dget c.queues q = some x →
      ∃ t k' c' x', exec (.distributorSearch cluster) s = .next t ∧ t.mem = s.mem ∧ dget t.kernels kid = some k'
        ∧ k'.st = .dispatching ∧ k'.dist = some cluster ∧ k'.ptr = 0 ∧ k'.next = 0 ∧ k'.rcd = k.rcd
        ∧ (t.dist cluster).kernels = (s.dist cluster).kernels ++ [kid] ∧ dget t.ctxs a = some c'
        ∧ dget c'.queues q = some x' ∧ x'.taken = x.taken + 1 ∧ kid ∉ dgetD x'.segs sl [])
    ∧ (∀ kid k core ptr, (s.dist cluster).placedAt ≠ some (fixedCycle s.pk.gts) → s.findResume cluster = none →
      s.findPlace cluster = some (kid, k, core, ptr) →
      ∃ t u k', exec (.distributorPlace cluster) s = .next t ∧ dget t.teams s.nextId = some u ∧ u.kernel = kid
        ∧ u.st = .running ∧ u.core = core ∧ u.lid = k.next ∧ u.restarts = 0
        ∧ u.age = BitVec.ofNat 64 (s.pk.gts % 2 ^ 61 * 8 + cluster) ∧ u.wsize = 4096 * k.field 384 376
        ∧ Zeroes s t (scratchKey core u.wbase) u.wsize
        ∧ (∀ n, n < k.field 364 360 + 1 → dget t.groups (s.nextId + 1 + n)
            = some (k.freshGroup s.nextId k.next core n ((s.slotsFree core).getD n 0)))
        ∧ dget t.kernels kid = some k' ∧ k'.next = k.next + 1 ∧ k'.ptr = ptr)
    ∧ (∀ tid u core k, (s.dist cluster).placedAt ≠ some (fixedCycle s.pk.gts) → s.findResume cluster = some (tid, u, core) →
      dget s.teams tid = some u → dget s.kernels u.kernel = some k → u.restartDue = false →
      (∀ e ∈ s.groups, ∀ sp ∈ e.2.splits, ∀ n b d a m,
        sp.st ≠ .blocked (.launch d a m) ∧ sp.st ≠ .blocked (.held n b d a m)) →
      ∃ t u', exec (.distributorPlace cluster) s = .next t ∧ dget t.teams tid = some u' ∧ u'.st = .running ∧ u'.core = core
        ∧ u'.windowIn = true ∧ u'.age = u.age ∧ u'.restarts = u.restarts
        ∧ (core ≠ u.core → ∀ l ∈ (t.core core).l1, l.asid ≠ u.asid))
    ∧ (∀ tid u, dget s.teams tid = some u →
      (u.copyingOut = true → (∀ e ∈ s.opsOf tid, e.2.inWindow = false) → ∃ t u', exec (.windowCopyOutDone tid) s = .next t ∧ dget t.teams tid = some u'
        ∧ u' = { u with copyingOut := false, windowIn := false, windowSaved := u'.windowSaved }
        ∧ (∀ i < u.wsize, u'.windowSaved.read i = s.mem.read (scratchKey u.core u.wbase + i))
        ∧ Zeroes s t (scratchKey u.core u.wbase) u.wsize)
      ∧ (u.copyingIn = true → ∃ t, exec (.windowCopyInDone tid) s = .next t ∧ t = { s with teams := t.teams }
        ∧ dget t.teams tid = some { u with copyingIn := false })
      ∧ (∀ reg n, (s.spillable u.core).find? (fun x => x.1 == tid && x.2.1 == reg) = some (tid, reg, n) →
        (∀ x ∈ s.spillable u.core, n ≤ x.2.2) → s.failsFor u.core .barriers = true →
        ∃ t, exec (.barrierSpill tid reg) s = .next t ∧ t = { s with teams := t.teams }
          ∧ dget t.teams tid
              = some { u with barriers := dset u.barriers reg { u.barrier reg with spilled := true } })
      ∧ (∀ loom b x, (s.loom loom).banks = [(b, x)] → x.team = tid → x.st = .owned →
        (longestAway (s.evictable loom)).map Prod.fst = some tid →
        (∃ i < 4, s.failsFor (4 * loom + i) .banks = true) → s.arenaFits u.asid (2 ^ 18) = true →
        ∃ t u', exec (.bankEvict loom tid) s = .next t ∧ t.mem = s.mem ∧ dget t.teams tid = some u'
          ∧ (∀ i, u.banks.getD i .unbound = .bound b → u'.banks.getD i .unbound = .evicted x.elems x.nan x.kept)
          ∧ (t.loom loom).banks = [(b, { x with st := .zeroing, kept := false })])
      ∧ (u.st = .running → u.stopReq = true → u.ver.irrevocable = false → s.pk.tokenHolder ≠ some tid → u.copyingIn = false →
        s.inOrder tid = true → (∀ e ∈ s.groupsOf tid, e.2.mayLeave = true) →
        ∃ t u', exec (.preemptionComplete tid) s = .next t ∧ t.mem = s.mem ∧ dget t.teams tid = some u'
          ∧ u' = { u with st := .preempted, awaySince := s.pk.gts, waitSince := none, stopReq := false, offCore := true })
      ∧ (∀ n, u.waitSince = some n → s.waiting tid u = true → s.inOrder tid = true →
        nextCycle (n + 1000 * s.swapth u) ≤ s.cyc1000 u.core →
        ∃ t u', exec (.swapOut tid) s = .next t ∧ t.mem = s.mem ∧ dget t.teams tid = some u'
          ∧ u' = { u with st := .swapped, awaySince := s.pk.gts, waitSince := none, stopReq := false, offCore := true }))

/-- A team whose work is over, of a kernel not cancelled, retires: its groups are gone, it does not hold the token, its hoops are on
their way to be released, its loom's banks of it are being zeroed or free, and its window is zero. A kernel over completes, and its
counter in a RESIDENT page goes down by one; a trapped one is FAULTED, its counter goes down by one with bit 63 set, and vector 2
is signalled. A due dump is begun under the next sequence number; ended, it has its entry, and vector 2 is signalled. A DRAINING queue with no
records left, in a context whose kernels are over, is gone. A quiescent context is gone; of no pages, with its kernels, export
windows and L1 lines, and of one RESIDENT page, with the page's frame zero (the model's choice of when a mirror's is, log 42) (R98,
R99, R109, R116, R121 to R123, R126, R380, R381). That a window is zeroed at retirement is the model's choice (log 58); how the counter
step meets the memory is log 46. -/
def Obligations.EndsOfTeamsAndKernels : Prop :=
  ∀ (s : State),
    (∀ tid u, dget s.teams tid = some u → s.mayRetire tid u = true → u.st ≠ .halting →
      (∀ k, dget s.kernels u.kernel = some k → k.st ≠ .cancelled) →
      ∃ t, exec (.teamRetire tid) s = .next t ∧ (∀ u', dget t.teams tid = some u' → u'.st = .retired)
        ∧ (∀ e ∈ t.groups, e.2.team ≠ tid) ∧ t.pk.tokenHolder ≠ some tid
        ∧ (∀ n, ∀ h ∈ (t.slice n).hoops, h.team = tid → h.leaving = true)
        ∧ (∀ e ∈ (t.loom (u.core / 4)).banks, e.2.team = tid → e.2.st = .zeroing ∨ e.2.st = .free)
        ∧ (u.windowIn = true → Zeroes s t (scratchKey u.core u.wbase) u.wsize) ∧ (u.windowIn = false → t.mem = s.mem))
    ∧ (∀ kid k a b p, dget s.kernels kid = some k → k.stepped = false → k.field 191 128 ≠ 0 →
      s.causeAt k.asid .token (k.field 191 128) .atomic = 0 → s.pageAt k.asid (k.field 191 128) = some (a, b, p) →
      p.st = .resident → s.kernelOver kid = true → (∀ e ∈ s.flight, e.2.passed = none) →
      let old := leNat (s.vbytes k.asid (k.field 191 128) 8)
      (k.st = .draining → ∃ t, exec (.kernelComplete kid) s = .next t
        ∧ dget t.kernels kid = some { k with st := .complete, stepped := true }
        ∧ StoresAt s t (p.key b (k.field 191 128)) (leBytes 8 ((old + 2 ^ 64 - 1) % 2 ^ 64)))
      ∧ (k.st = .dispatching ∨ k.st = .running → k.trapped = true →
        ∃ t, exec (.kernelFaulted kid) s = .next t ∧ dget t.kernels kid = some { k with st := .faulted, stepped := true }
          ∧ StoresAt s t (p.key b (k.field 191 128)) (leBytes 8 ((old + 2 ^ 64 - 1) % 2 ^ 64 ||| 2 ^ 63))
          ∧ t.pk.msix = s.pk.msix.modify 2 (· + 1) ∧ kid ∉ (t.dists.flatMap fun e => e.2.kernels)))
    ∧ (∀ tid u k c, dget s.teams tid = some u → dget s.kernels u.kernel = some k → dget s.ctxs u.asid = some c →
      s.dumpReady tid u = true → (∀ e ∈ s.teams, e.2.asid = u.asid → e.2.dumpDue = true → u.trappedAt ≤ e.2.trappedAt) →
      c.writing = none → (∀ e ∈ s.ctxs, ∀ d, e.2.writing = some d → d.team ≠ tid) →
      ∃ t c' d, exec (.dumpWrite tid) s = .next t ∧ dget t.ctxs u.asid = some c' ∧ c'.dumpSeq = c.dumpSeq + 1
        ∧ c'.writing = some d ∧ d.team = tid ∧ d.tag = none ∧ d.entry.seq = c.dumpSeq + 1)
    ∧ (∀ tid a c d, dget s.ctxs a = some c → c.writing = some d → d.team = tid → d.tag = none →
      (∀ e ∈ s.ctxs, ∀ x, e.2.writing = some x → x.team = tid → e = (a, c)) →
      ∃ t c', exec (.dumpWrite tid) s = .next t ∧ dget t.ctxs a = some c' ∧ c'.writing = none ∧ d.entry ∈ c'.dumps
        ∧ t.pk.msix = s.pk.msix.modify 2 (· + 1)
        ∧ ∀ u, dget s.teams tid = some u → ∃ u', dget t.teams tid = some u' ∧ u'.dumped = true)
    ∧ (∀ asid c, dget s.ctxs asid = some c →
      (∀ qid q, dget c.queues qid = some q → q.st = .draining → (∀ e ∈ q.segs, e.2 = []) →
        (∀ e ∈ s.kernelsOf asid, e.2.isOver = true) →
        ∃ t, exec (.queueDrainDone asid qid) s = .next t ∧ t = { s with ctxs := t.ctxs }
          ∧ dget t.ctxs asid = some { c with queues := ddel c.queues qid })
      ∧ (s.quiescent asid c = true →
        (c.pages = [] → ∃ t, exec (.contextQuiescence asid) s = .next t ∧ t.mem = s.mem ∧ dget t.ctxs asid = none
          ∧ (∀ e ∈ t.kernels, e.2.asid ≠ asid) ∧ (∀ e ∈ t.pk.windows, e.2.asid ≠ asid)
          ∧ ∀ e ∈ t.cores, ∀ l ∈ e.2.l1, l.asid ≠ asid)
        ∧ (∀ va p, c.pages = [(va, p)] → p.st = .resident → p.hold = [] → p.waiters = [] →
          ∃ t, exec (.contextQuiescence asid) s = .next t ∧ dget t.ctxs asid = none
            ∧ ((∀ a va, p.loc ≠ .mirror a va) → Zeroes s t p.frame p.bytes)
            ∧ (∀ a va, p.loc = .mirror a va → GivesUp s t p.frame p.bytes))))

/-! ### Mailbox commands -/

/-- The context and queue commands, in the states that permit them. CTX_CREATE issues the next ASID where that is free; CTX_ARM, of
no pools and pages, installs what it carries. The others change the state of the context or queue and answer OK; a drain with CANCEL
is stated where there is no team and no kernel. CTX_QUERY and Q_QUERY return their fields. DUMP_READ of the one dump, and TRACE_READ,
answer BAD_CREDENTIAL where the owner's signature does not verify; else the records, or the dump as its key opens it, DUMP_AUTH where
that fails. Q_CREATE takes the lowest free id. Q_ENQ puts a record at the end of its segment, or answers QUEUE_FULL (R90 to R101, R103,
R108 to R110). The layout of the signed digest is the model's choice (log 13), as are the operands and words of an answer, which the spec
gives no frame (log 12), and what a refused command leaves (log 42). -/
def Obligations.ContextAndQueueCommands : Prop :=
  ∀ (s : State) (asid : Nat) (c : Ctx), Serves s → dget s.ctxs asid = some c →
    let serving := c.st = .armed ∨ c.st = .active ∨ c.st = .suspended
    (∀ m cred a, 64 ≤ m → m ≤ 65536 → cred.length = 1312 → s.ctxs.length < 1024 → m * 2 ^ 20 ≤ s.hbmFree s.frames →
      a = s.pk.lastAsid % 65535 + 1 → dget s.ctxs a = none →
      ∃ t, exec (.ctxCreate m cred) s = .next t ∧ t.mem = s.mem ∧ Answers s t 0 [BitVec.ofNat 64 a] [] ∧ t.pk.lastAsid = a
        ∧ dget t.ctxs a = some (Ctx.created m cred) ∧ ∀ n, n ≠ a → dget t.ctxs n = dget s.ctxs n)
    ∧ (∀ rec bs a fs s1, c.st = .created → armRecordOk rec = true → readArming (rec.extractLsb' 0 4).toNat bs = .ok a →
      a.pools = [] → c.pages = [] →
      let va := (rec.extractLsb' 64 64).toNat
      let size := (rec.extractLsb' 128 64).toNat
      size ≤ s.hbmFree s.frames →
      s.framesFor s.frames ((dumpPages va size).map fun e => e.2.ask asid e.1) = some (fs, s1) →
      ∃ t c', exec (.ctxArm asid rec bs) s = .next t ∧ Answers s t 0 [] [] ∧ dget t.ctxs asid = some c'
        ∧ c' = { c with st := .armed, mapNum := (rec.extractLsb' 0 4).toNat, map := a.map, freq := a.freq,
                        masks2 := a.masks2, masks3 := a.masks3, dumpVa := va, dumpSize := size, dumpBanks := rec.getLsbD 8,
                        dumpKey := c'.dumpKey, pages := c'.pages, regions := [], pch := [], budgetAt := s.pk.gts
                        remoteBw := if (rec.extractLsb' 32 32).toNat = 0 then 1000 else (rec.extractLsb' 32 32).toNat }
        ∧ c'.dumpKey.isSome = true)
    ∧ (c.st = .armed → Commands s asid { c with st := .active } 0 [] (exec (.ctxActivate asid) s))
    ∧ (c.st = .active → ∃ t, exec (.ctxSuspend asid) s = .next t ∧ t = { s with ctxs := t.ctxs, pk := t.pk, teams := t.teams }
        ∧ Answers s t 0 [] [] ∧ dget t.ctxs asid = some { c with st := .suspended }
        ∧ ∀ tid u, dget s.teams tid = some u → dget t.teams tid = some { u with stopReq :=
            if u.asid = asid ∧ (u.st = .running ∨ u.st = .wounded) ∧ u.ver.irrevocable = false then true else u.stopReq })
    ∧ (c.st = .suspended → Commands s asid { c with st := .active } 0 [] (exec (.ctxResume asid) s))
    ∧ (let ended := fun cancel => ({ c with st := .draining, cancel := cancel, queues := c.queues.map fun q =>
          (q.1, { q.2 with st := .draining, cancel := q.2.cancel || cancel }) } : Ctx)
      (serving → c.st ≠ .armed → Commands s asid (ended false) 0 [] (exec (.ctxDrain asid false) s))
      ∧ (serving → c.st ≠ .armed → s.teams = [] → s.kernels = [] → ∃ t, exec (.ctxDrain asid true) s = .next t
          ∧ t.mem = s.mem ∧ Answers s t 0 [] [] ∧ dget t.ctxs asid = some (ended true)))
    ∧ Commands s asid c 0 ([c.st.code, c.arenaWait, c.promoDropped, c.refFault, c.skeinLost].map (BitVec.ofNat 64))
        (exec (.ctxQuery asid) s)
    ∧ (∀ slot seq sig e, c.lastSeq < seq → seq < 2 ^ 64 → c.dumps = [e] → e.slot = slot →
      let ok := mldsaVerify c.cred (ownerDigest 8 asid slot seq) sig
      let plain := gcmOpen (c.dumpKey.getD 0) (dumpIv e.seq)
        (leBytes 64 (leNat (s.vbytes asid (c.dumpVa + 64 * slot) 64) / 4 * 4)) (s.vbytes asid (c.dumpVa + e.off) (e.len + 16))
      ∃ t, exec (.dumpRead asid slot seq sig) s = .next t
        ∧ (ok = false → t.mem = s.mem ∧ t.ctxs = s.ctxs ∧ Answers s t 8 [] [])
        ∧ (ok = true → plain = none → t.mem = s.mem ∧ t.ctxs = s.ctxs ∧ Answers s t 0x14 [] [])
        ∧ (ok = true → ∀ bs, plain = some bs → Answers s t 0 [] bs
            ∧ dget t.ctxs asid = some { c with lastSeq := seq }))
    ∧ (∀ core seq sig, c.lastSeq < seq → seq < 2 ^ 64 → core = 0xFFFF ∨ core < 512 →
      let ok := mldsaVerify c.cred (ownerDigest 9 asid core seq) sig
      ∃ t, exec (.traceRead asid core seq sig) s = .next t
        ∧ (ok = false → t.mem = s.mem ∧ t.ctxs = s.ctxs ∧ Answers s t 8 [] [])
        ∧ (ok = true → dget t.ctxs asid = some { c with lastSeq := seq }
          ∧ (core = 0xFFFF → Answers s t 0 [] (c.faultLog.flatMap FaultRecord.image))
          ∧ (core ≠ 0xFFFF → Answers s t 0 [] (((s.core core).trace.filter fun r =>
              isEpoch r || traceAsid r == asid).flatMap fun r => leBytes 16 r.toNat))))
    ∧ (∀ prio n q, serving → prio ≤ 3 → 4 ≤ n → n ≤ 12 → q < 64 → (∀ j < q, dget c.queues j ≠ none) →
      dget c.queues q = none → s.arenaFits asid (2 ^ 15 * 2 ^ n) = true →
      Commands s asid { c with queues := dset c.queues q ⟨prio, n, .created, false, [], 0⟩ } 0 [BitVec.ofNat 64 q]
        (exec (.qCreate asid prio n) s))
    ∧ (∀ qid q, dget c.queues qid = some q →
      let turned := fun st => ({ c with queues := dmod c.queues qid fun q => { q with st := st } } : Ctx)
      (serving → q.st = .created → Commands s asid (turned .active) 0 [] (exec (.qActivate asid qid) s))
      ∧ (serving → q.st = .active → Commands s asid (turned .paused) 0 [] (exec (.qPause asid qid) s))
      ∧ (serving → q.st = .paused → Commands s asid (turned .active) 0 [] (exec (.qResume asid qid) s))
      ∧ (serving → q.cancel = false →
        Commands s asid { c with queues := dmod c.queues qid fun q => { q with st := .draining, cancel := false } } 0 []
          (exec (.qDrain asid qid false) s))
      ∧ (serving → q.cancel = false → s.teams = [] → s.kernels = [] → ∃ t, exec (.qDrain asid qid true) s = .next t
          ∧ t.mem = s.mem ∧ Answers s t 0 [] [] ∧ dget t.ctxs asid = some
              { c with queues := dmod c.queues qid fun q => { q with st := .draining, cancel := true } })
      ∧ (∀ rec, serving → q.st ≠ .draining → recordOk rec = true → recordTop rec = true →
        (q.held (sliceOf rec)).length < 2 ^ q.c →
        ∃ t c' q' k, exec (.qEnq asid qid rec) s = .next t ∧ t.mem = s.mem ∧ Answers s t 0 [] []
          ∧ dget t.ctxs asid = some c' ∧ dget c'.queues qid = some q'
          ∧ q'.held (sliceOf rec) = q.held (sliceOf rec) ++ [s.nextId] ∧ dget t.kernels s.nextId = some k
          ∧ k.asid = asid ∧ k.rcd = rec ∧ k.depth = 0 ∧ k.st = .enqueued ∧ k.src = .segment asid qid (sliceOf rec))
      ∧ (∀ rec, serving → q.st ≠ .draining → recordOk rec = true → recordTop rec = true →
        2 ^ q.c ≤ (q.held (sliceOf rec)).length → Commands s asid c 0x0B [] (exec (.qEnq asid qid rec) s))
      ∧ Commands s asid c 0 ([q.st.code, q.prio, q.c, q.segs.foldl (fun n e => n + e.2.length) 0, q.taken, c.enqLost].map
          (BitVec.ofNat 64)) (exec (.qQuery asid qid) s))

/-- The page commands on one page, where no earlier command waits. PG_MAP of a page in the slow tier, or of a zero page in HBM;
PG_UNMAP, PG_PROTECT, PG_MIGRATE and PG_SETHASH where no version holds sectors; each answers OK, with the page as it says. PG_EVICT
begins an eviction and waits for its end. PG_PROMOTE begins a promotion, leaves it due under the host's lock, or finds no memory. PG_QUERY returns the attribute word with
its read-only fields but STACK. UR_XLATE without PULL returns the host address and permissions of a page in the host's memory, and
locks a writable one on W; UR_RETURN clears the lock. SH_ATTACH, PCH_QUERY and POOL_DEFINE change and return what they say. A transfer
within a sector copies its bytes (R248 to R257, R263, R266, R271 to R273, R334, R335, R403). The operands and the words of an answer are
the model's layout (log 12); which checks come first, and how a transfer meets the accesses in flight, are logs 12 and 46. -/
def Obligations.PageCommands : Prop :=
  ∀ (s : State) (asid : Nat) (c : Ctx), Serves s → dget s.ctxs asid = some c →
    c.st = .armed ∨ c.st = .active ∨ c.st = .suspended → s.mp.waiting = [] →
    let okOn := fun (o : Out) (va : Nat) (p : Page) =>
      ∃ t, o = .next t ∧ t.mem = s.mem ∧ Answers s t 0 [] [] ∧ PageBecomes s t asid va p
    (∀ va attr loc, attrOk attr = true → locatorOk attr loc = true → attrSc attr ≤ 9 → va % classBytes (attrSc attr) = 0 →
      rangeCanonical va (classBytes (attrSc attr)) = true → c.rangeTaken va (classBytes (attrSc attr)) = false →
      let p := (newPage va 0 attr loc).2
      p.r = attr.getLsbD 0 ∧ p.w = attr.getLsbD 1 ∧ p.x = attr.getLsbD 2 ∧ p.sc = attrSc attr
        ∧ p.back = (attr.extractLsb' 16 2).toNat ∧ p.mset = (attr.extractLsb' 14 2).toNat ∧ p.hostlock = false
      ∧ (attr.extractLsb' 16 2 = 1 → okOn (exec (.pgMap asid va 1 attr loc) s) va { p with st := .remote })
      ∧ (attr.extractLsb' 16 2 = 0 → loc = .none → ∀ f, s.frameFor s.frames (p.ask asid va) = some f →
        ∃ t, exec (.pgMap asid va 1 attr loc) s = .next t ∧ Zeroes s t f p.bytes ∧ Answers s t 0 [] []
          ∧ PageBecomes s t asid va { p with st := .resident, frame := f }))
    ∧ (∀ va p, dget c.pages va = some p → c.walk 1 va = some [(va, p)] →
      (p.pinned = false → s.pageVersioned asid va p = false → p.st = .resident → p.hold = [] → p.waiters = [] →
        ∃ t, exec (.pgUnmap asid va 1) s = .next t ∧ Answers s t 0 [] [] ∧ GivesUp s t p.frame p.bytes
          ∧ (dget t.ctxs asid).bind (fun c => dget c.pages va) = none)
      ∧ (∀ r w x, p.pinned = false → (w = true → s.aliased p = false) → s.pageVersioned asid va p = false →
        okOn (exec (.pgProtect asid va 1 r w x) s) va { p with r := r, w := w, x := x })
      ∧ (∀ stack f, stack < 24 → p.pinned = false → p.st = .resident →
        s.frameFor s.frames ⟨stack, 0, p.bytes, p.mset, true⟩ = some f →
        okOn (exec (.pgMigrate asid va stack) s) va { p with st := .migrating, newFrame := f, newMset := p.mset })
      ∧ (∀ mset f, mset < 4 → p.pinned = false → p.st = .resident →
        s.frameFor s.frames ⟨p.frame / 2 ^ 37, 0, p.bytes, mset, true⟩ = some f →
        okOn (exec (.pgSethash asid va 1 mset) s) va { p with st := .migrating, newFrame := f, newMset := mset })
      ∧ (p.pinned = false → p.back = 1 → p.st = .resident → s.pageVersioned asid va p = false →
        ∃ t, exec (.pgEvict asid va 1) s = .next t ∧ t.mem = s.mem ∧ t.pk = s.pk
          ∧ PageBecomes s t asid va { p with st := .evicting }
          ∧ t.mp = { s.mp with waiting := [⟨s.nextId, s.tag, .evict asid va 1, .evicting⟩] })
      ∧ (p.st = .remote → p.back = 1 →
        (p.hostlock = true → okOn (exec (.pgPromote asid va 1) s) va { p with due := true })
        ∧ (∀ f, p.hostlock = false → s.frameFor s.frames (p.ask asid va) = some f →
          okOn (exec (.pgPromote asid va 1) s) va { p with st := .promoting, newFrame := f, since := s.pk.gts, due := false })
        ∧ (p.hostlock = false → s.frameFor s.frames (p.ask asid va) = none → s.evicting asid = false → s.makeRoom asid [] = none →
          Commands s asid c 0x0F [] (exec (.pgPromote asid va 1) s)))
      ∧ (p.sc < 16 → p.mset < 4 → p.back < 4 → ∃ t w, exec (.pgQuery asid va) s = .next t ∧ t.mem = s.mem ∧ t.ctxs = s.ctxs
          ∧ Answers s t 0 [w] [] ∧ w.getLsbD 0 = p.r ∧ w.getLsbD 1 = p.w ∧ w.getLsbD 2 = p.x ∧ w.getLsbD 6 = p.zero
          ∧ w.getLsbD 7 = p.unified ∧ w.getLsbD 18 = p.hostlock ∧ w.toNat / 2 ^ 14 % 4 = p.mset
          ∧ w.toNat / 2 ^ 16 % 4 = p.back ∧ w.toNat / 2 ^ 21 % 8 = p.st.code ∧ w.toNat / 2 ^ 24 % 2 ^ 8 = homeOf asid va
          ∧ w.toNat / 2 ^ 32 % 2 ^ 4 = p.sc)
      ∧ (∀ store port, p.pinned = false → p.unified = true → p.st = .remote → p.loc = .slow store port →
        let data : List DWord := [1, BitVec.ofNat 64 (store + p.locOff), BitVec.ofNat 64 (bit p.x 2 + bit p.w 1 + bit p.r 0)]
        Commands s asid c 0 data (exec (.urXlate asid va 1 false false) s)
        ∧ ∃ t, exec (.urXlate asid va 1 true false) s = .next t ∧ Answers s t 0 data []
            ∧ PageBecomes s t asid va { p with hostlock := p.hostlock || p.w })
      ∧ (p.unified = true → okOn (exec (.urReturn asid va 1) s) va { p with hostlock := false }))
    ∧ (∀ shared base size x, shared ≠ asid → dget s.ctxs shared = some x → x.queues = [] → c.attach.length < 4 →
      base % 2 ^ 21 = 0 → size % 2 ^ 21 = 0 → size ≠ 0 → rangeCanonical base size = true → c.rangeTaken base size = false →
      c.regionMeets base size = false →
      Commands s asid { c with attach := c.attach ++ [⟨shared, base, size⟩] } 0 [] (exec (.shAttach asid shared base size) s))
    ∧ (∀ stack clear, stack < 24 →
      Commands s asid (if clear then { c with pch := c.pch.filter fun e => e.1 / 64 != stack } else c) 0
        ((List.range 64).map fun i => BitVec.ofNat 64 (sget 0 c.pch (64 * stack + i))) (exec (.pchQuery asid stack clear) s))
    ∧ (∀ d, c.poolOk d = true → s.arenaFits asid (32 * (poolOf d).nblk) = true →
      Commands s asid { c with pools := dset c.pools (d.extractLsb' 0 8).toNat (poolOf d) } 0 [] (exec (.poolDefine asid d) s))
    ∧ (∀ va a b p, s.mp.xfers = [] → s.pageAt asid va = some (a, b, p) → p.st ≠ .remote →
      (∀ bs, bs ≠ [] → va % 64 + bs.length ≤ 64 → s.causeAt asid .token va .write = 0 → s.holds p true va bs.length = false →
        ∃ t, exec (.xferIn asid va bs) s = .next t ∧ StoresAt s t (p.key b va) bs ∧ Answers s t 0 [] [])
      ∧ (∀ n, 0 < n → va % 64 + n ≤ 64 → s.causeAt asid .token va .read = 0 → s.holds p false va n = false →
        ∃ t, exec (.xferOut asid va n) s = .next t ∧ Answers s t 0 [] (s.vbytes asid va n)
          ∧ StoresAt s t (bar2Key (0x10000 * (s.tag / 2 ^ 64 % 32))) (s.vbytes asid va n)))

/-- The debug commands answer OK: attaching; detaching, which releases the groups of the context; holding, where no group has faulted
lanes, and releasing the groups named; a snapshot of a team whose groups are held and quiesced, begun under the next sequence
number and answered when it is written; and the write of a vector register in its budget, a scalar or %fmode of such a group (R388 to
R390). When a hold takes effect, and that a snapshot waits for a dump being written, are the model's choices (logs 43, 54). -/
def Obligations.DebugCommands : Prop :=
  ∀ (s : State) (asid : Nat) (c : Ctx), Serves s → dget s.ctxs asid = some c →
    Commands s asid { c with dbg := true } 0 [] (exec (.dbgAttach asid) s)
    ∧ (∃ t, exec (.dbgDetach asid) s = .next t ∧ t.mem = s.mem ∧ Answers s t 0 [] []
        ∧ dget t.ctxs asid = some { c with dbg := false }
        ∧ ∀ gid g, dget s.groups gid = some g → dget t.groups gid
            = some (if (dget s.teams g.team).map Team.asid = some asid then { g with dbgHeld := false } else g))
    ∧ (∀ ktag lid tid u, s.findTeam asid ktag lid = some (tid, u) →
      (∀ mask on, (on = true → ∀ e ∈ s.groups, e.2.faulted = 0) → ∃ t, exec (if on then .dbgHold asid ktag lid mask else .dbgRelease asid ktag lid mask) s = .next t
          ∧ t = { s with groups := t.groups, pk := t.pk } ∧ Answers s t 0 [] []
          ∧ ∀ gid g, dget s.groups gid = some g → dget t.groups gid
              = some (if g.team = tid ∧ g.st ≠ .ended ∧ mask.getLsbD g.grp = true then { g with dbgHeld := on } else g))
      ∧ (∀ k, dget s.kernels u.kernel = some k → u.asid = asid → (∀ e ∈ s.groups, e.2.team = tid → e.2.quiesced u = true) →
        c.writing = none →
        ∃ t c' d, exec (.dbgSnap asid ktag lid) s = .next t ∧ dget t.ctxs asid = some c' ∧ c'.dumpSeq = c.dumpSeq + 1
          ∧ c'.writing = some d ∧ d.team = tid ∧ d.tag = some s.tag ∧ d.entry.seq = c.dumpSeq + 1 ∧ t.groups = s.groups
          ∧ t.pk = s.pk)
      ∧ (∀ d g, c.writing = some d → d.team = tid → d.tag = some g →
        (∀ e ∈ s.ctxs, ∀ x, e.2.writing = some x → x.team = tid → e = (asid, c)) →
        ∃ t c', exec (.dumpWrite tid) s = .next t ∧ Answers { s with tag := g } t 0 [] [] ∧ dget t.ctxs asid = some c'
          ∧ c'.writing = none ∧ d.entry ∈ c'.dumps ∧ t.teams = s.teams ∧ t.groups = s.groups)
      ∧ (∀ k gid g reg lanes x, dget s.kernels u.kernel = some k → s.groups = [(gid, g)] → g.team = tid → g.st = .live →
        g.quiesced u = true →
        (reg < 8 * k.granules g.role → ∃ t v, exec (.dbgWrite asid ktag lid g.grp 0 reg lanes x) s = .next t
          ∧ t = { s with groups := [(gid, { g with v := v })], pk := t.pk } ∧ Answers s t 0 [] []
          ∧ ∀ n l, l < 32 → ({ g with v := v } : Group).vreg n l =
              if n = reg ∧ lanes.getLsbD l = true then x.extractLsb' 0 32 else g.vreg n l)
        ∧ (reg < 64 → ∃ t m, exec (.dbgWrite asid ktag lid g.grp 1 reg lanes x) s = .next t
          ∧ t = { s with groups := [(gid, { g with s := m })], pk := t.pk } ∧ Answers s t 0 [] []
          ∧ ∀ n, ({ g with s := m } : Group).sreg n = if n = reg then x else g.sreg n)
        ∧ ∃ t, exec (.dbgWrite asid ktag lid g.grp 2 reg lanes x) s = .next t
          ∧ t = { s with groups := [(gid, { g with fmode := x.extractLsb' 0 32 &&& 1 })], pk := t.pk }
          ∧ Answers s t 0 [] []))

/-- The link commands: a port's configuration and states, its query, the trusted hashes, and export windows (R392 to R395). The
operands and the words of an answer are the model's layout (log 12), and so is the number of a new window, the lowest free one (log
58). -/
def Obligations.LinkCommands : Prop :=
  ∀ (s : State), Serves s →
    (∀ i, i < 16 →
      let x := s.port i
      let becomes := fun (o : Out) (y : Port) => ∃ t, o = .next t ∧ t = { s with ports := t.ports, pk := t.pk }
        ∧ Answers s t 0 [] [] ∧ t.port i = y ∧ ∀ j, j ≠ i → t.port j = s.port j
      (∀ n m, x.st = .down → n = 0 ∨ 10 ≤ n → n ≤ 100000 → becomes (exec (.lkConfig i n m) s)
        { x with timeoutUs := if n = 0 then 1000 else n, tmaster := m })
      ∧ (x.st = .down → becomes (exec (.lkEnable i) s) { x with st := .training, since := s.pk.gts })
      ∧ (x.st = .up ∨ x.st = .degraded → becomes (exec (.lkDisable i) s) { x with st := .draining, since := s.pk.gts })
      ∧ (x.st = .failed → becomes (exec (.lkReset i) s) { x with st := .down, since := s.pk.gts })
      ∧ ∃ t, exec (.lkQuery i) s = .next t ∧ t.ports = s.ports ∧ Answers s t 0
          ([x.st.code, if x.st = .down ∨ x.st = .training ∨ x.st = .failed then 0 else x.lanes, x.timeoutUs, x.sent, x.answered,
            x.faulted, x.timedOut, x.late].map (BitVec.ofNat 64)) x.peer)
    ∧ (∀ h, h.length = 32 → ∃ t, exec (.trustAdd h) s = .next t ∧ t = { s with pk := t.pk } ∧ Answers s t 0 [] []
        ∧ ∀ x, x ∈ t.pk.trust ↔ x = h ∨ x ∈ s.pk.trust)
    ∧ (∀ asid c base size r w a peer n, dget s.ctxs asid = some c → c.st = .armed ∨ c.st = .active ∨ c.st = .suspended →
      base % 2 ^ 21 = 0 → size % 2 ^ 21 = 0 → 2 ^ 21 ≤ size → size ≤ 2 ^ 40 → rangeCanonical base size = true → n < 1024 →
      (∀ j < n, dget s.pk.windows j ≠ none) → dget s.pk.windows n = none →
      ∃ t, exec (.expCreate asid base size r w a peer) s = .next t ∧ t = { s with pk := t.pk }
        ∧ Answers s t 0 [BitVec.ofNat 64 n] []
        ∧ t.pk.windows = dset s.pk.windows n ⟨asid, base, size, r, w, a, peer, none⟩)
    ∧ (∀ asid c n x, dget s.ctxs asid = some c → c.st = .armed ∨ c.st = .active ∨ c.st = .suspended →
      s.pk.windows = [(n, x)] → x.asid = asid → x.closing = none →
      ((∀ e ∈ s.ports, ∀ q ∈ e.2.inb, q.window ≠ n) → ∃ t, exec (.expDestroy asid n) s = .next t ∧ t = { s with pk := t.pk }
        ∧ Answers s t 0 [] [] ∧ t.pk.windows = [])
      ∧ ((∃ e ∈ s.ports, ∃ q ∈ e.2.inb, q.window = n) → ∃ t, exec (.expDestroy asid n) s = .next t
        ∧ t = { s with pk := { s.pk with windows := [(n, { x with closing := some s.tag })] } }))

/-- The device commands: the identity and failed units; the attestation report and its signature; the sensor block; an island's set
point, and BAD_POINT for one there is not; the power limit; and a firmware image, kept where it verifies and refused with some code
where not (R403 to R405, R407 to R409). The bytes of the identity, the codes of units, the bytes that are signed and the signature's place in an
image are the model's choice (logs 12, 13, 44, 49). -/
def Obligations.DeviceCommands : Prop :=
  ∀ (s : State), Serves s →
    (∃ t, exec .devInfo s = .next t
      ∧ Answers s t 0 (s.pk.failed.map fun u => BitVec.ofNat 64 (unitCode u.1 * 2 ^ 32 + u.2)) Config.deviceIdentity)
    ∧ (∀ nonce, nonce.length = 32 →
      let report := nonce ++ fit 32 s.pk.measurement ++ fit 32 Config.steppings ++ sha3 Config.deviceKey
      report.length = 128
        ∧ ∃ t, exec (.devAttest nonce) s = .next t ∧ Answers s t 0 [] (report ++ fit 2420 (Config.attestSign report)))
    ∧ (∃ t, exec .sensorRead s = .next t ∧ t = { s with pk := t.pk } ∧ Answers s t 0
        ((s.pk.sensors.islandTemp ++ s.pk.sensors.dieTemp ++ s.pk.sensors.stackTemp
          ++ [s.pk.sensors.powerMw, s.pk.sensors.coolIn, s.pk.sensors.coolOut]
          ++ (List.range 128).map fun i => (s.island i).point).map (BitVec.ofNat 64)) [])
    ∧ (∀ i p, i < 128 → p ≤ 4 → ∃ t, exec (.islandSet i p) s = .next t ∧ t = { s with islands := t.islands, pk := t.pk }
        ∧ Answers s t 0 [] [] ∧ (t.island i).setPoint = p ∧ (t.island i).point = (s.island i).point
        ∧ ((s.island i).change = none → (s.island i).cap = none →
            (t.island i).change = if p = (s.island i).point then none else some p)
        ∧ ∀ j, j ≠ i → t.island j = s.island j)
    ∧ (∀ i p, 128 ≤ i ∨ 4 < p → ∃ t, exec (.islandSet i p) s = .next t ∧ t.islands = s.islands ∧ Answers s t 0x1A [] [])
    ∧ (∀ w, 1000 ≤ w → w ≤ 2800 → ∃ t, exec (.pwrLimit w) s = .next t ∧ t.mem = s.mem ∧ t.pk.limitW = w ∧ Answers s t 0 [] [])
    ∧ (∀ image, ∃ t, exec (.fwUpdate image) s = .next t ∧ t = { s with pk := t.pk, freeCtr := t.freeCtr }
        ∧ (imageValid image = true → t.pk.image = image ∧ Answers s t 0 [] [])
        ∧ (imageValid image = false → t.pk.image = s.pk.image ∧ ∃ k, k ≠ 0 ∧ Answers s t k [] []))

/-! ### The host, power and links -/

/-- The steps of the host and of power. RSP_CONS_WRITE sets RSP_CONS and posts the one response held where there is room. A
REGISTER_WRITE writes REQ_PROD, RSP_CONS, a request slot or BAR2, changes nothing at other offsets, and faults beyond BAR2. A reset of
the package clears what it says, and goes on to HBM training or to recovery; after training every island begins its change to point
2. A quiet island that changes its point stops, and resumes at the new point within 20 µs, with at most 15,000,000 cycles/1000 more;
READY follows. A sample of the sensors holds the package for each junction above 115 °C, with vector 1, until that is below 95 °C. A step of the power
limit, where no island is hot, lowers the island of highest power by one point while the package is over its limit. 100 ms after its
causes cleared an island is back at its set point. A failed unit enters the list, with vector 1. A core's ring enters a new epoch
with an EPOCH record (R17, R385, R400, R402, R404 to R409). What a word written into the operands of a request does is the model's
choice (log 12), and so are the bytes that firmware is verified over (logs 13, 44), the one signal of a sample (log 44), and that memory
starts at zero (log 2). -/
def Obligations.HostAndPowerSteps : Prop :=
  ∀ (s : State),
    (∀ v : Word, (s.pk.held = [] → ∃ t, exec (.rspConsWrite v) s = .next t ∧ t = { s with pk := { s.pk with rspCons := v.toNat } })
      ∧ (∀ r, s.pk.held = [r] → ringGap s.pk.rspProd v.toNat < 32 → ∃ t, exec (.rspConsWrite v) s = .next t
          ∧ t.pk.held = [] ∧ t.pk.rspCons = v.toNat ∧ dget t.pk.rspSlots (s.pk.rspProd % 32) = some r
          ∧ t.pk.rspProd = (s.pk.rspProd + 1) % 2 ^ 32)
      ∧ (∀ o, (o = 8 → exec (.registerWrite o v) s = .next { s with pk := { s.pk with reqProd := v.toNat } })
          ∧ (o = 0x20 → exec (.registerWrite o v) s = exec (.rspConsWrite v) s)
          ∧ (0x8000 ≤ o → o < 0x10000 →
            let slot := (o - 0x8000) / 1024
            let k := o % 1024 / 4
            let f := dgetD s.pk.reqSlots slot Frame.empty
            ∃ t g, exec (.registerWrite o v) s = .next t ∧ t = { s with pk := { s.pk with reqSlots := dset s.pk.reqSlots slot g } }
              ∧ (∀ j < 4, g.hdr.extractLsb' (32 * j) 32 = if j = k then v else f.hdr.extractLsb' (32 * j) 32)
              ∧ g.cmd = if k < 4 then f.cmd else none)
          ∧ (o ≠ 8 → o ≠ 0x20 → o < 0x8000 ∨ 0x10000 ≤ o → o < 0x20000 → exec (.registerWrite o v) s = .next s)
          ∧ (0x20000 ≤ o → o < 0x220000 → ∃ t, exec (.registerWrite o v) s = .next t ∧ t = { s with mem := t.mem }
              ∧ StoresAt s t (bar2Key (o - 0x20000)) (leBytes 4 v.toNat))
          ∧ (0x220000 ≤ o → exec (.registerWrite o v) s = .fault .noSuchRegister)))
    ∧ (∃ t, exec .packageReset s = .next t ∧ t.pk.phase = (if imageValid s.pk.image = true then .hbmTraining else .recovery)
        ∧ t.pk.gts = 0 ∧ t.pk.image = s.pk.image ∧ t.pk.measurement = measureOf s.pk.image ∧ t.pk.trust = [] ∧ t.ctxs = []
        ∧ t.kernels = [] ∧ t.teams = [] ∧ t.groups = [] ∧ t.flight = [] ∧ t.ports = [] ∧ t.cores = []
        ∧ ∀ a, t.mem.read a = if 2 ^ 60 ≤ a then s.mem.read a else 0)
    ∧ (s.pk.phase = .hbmTraining → ∃ t, exec .hbmTrainingDone s = .next t ∧ t = { s with pk := t.pk, islands := t.islands }
        ∧ t.pk = { s.pk with phase := .release, gts := 0 }
        ∧ ∀ i < 128, t.island i = { Island.reset with setPoint := 2, change := some 2 })
    ∧ (∀ i p, i < 128 → (s.island i).change = some p →
      ((s.island i).stopped = false → s.islandQuiet i = true → ∃ t, exec (.islandStop i) s = .next t
        ∧ t = { s with islands := t.islands } ∧ t.island i = { s.island i with stopped := true, stoppedNs := 0 }
        ∧ ∀ j, j ≠ i → t.island j = s.island j)
      ∧ ((s.island i).stopped = true → 0 < (s.island i).stoppedNs → (s.island i).stoppedNs ≤ 20000 →
        ∃ t, exec (.islandResume i) s = .next t ∧ t.mem = s.mem
        ∧ (t.island i).point = p ∧ (t.island i).stopped = false
        ∧ (t.island i).change = (if (s.island i).target = p then none else some (s.island i).target)
        ∧ (s.island i).cyc1000 ≤ (t.island i).cyc1000 ∧ (t.island i).cyc1000 ≤ (s.island i).cyc1000 + 15000000
        ∧ (t.pk.phase = .ready ↔ s.pk.phase = .ready ∨ (s.pk.phase = .release ∧ t.islandsUp = true))
        ∧ ∀ j, j ≠ i → t.island j = s.island j))
    ∧ (∀ b, s.pk.sampledAt + 1000000 ≤ s.pk.gts → s.pk.phase = .ready ∨ s.pk.phase = .release → b.islandTemp.length = 128 →
      b.islandMw.length = 128 → b.dieTemp.length = 5 → b.stackTemp.length = 24 →
      ∃ t, exec (.sensorSample b) s = .next t ∧ t.mem = s.mem ∧ t.pk.sensors = b ∧ t.pk.sampledAt ≤ s.pk.gts
        ∧ s.pk.gts < t.pk.sampledAt + 1000000 ∧ (t.pk.sampledAt - s.pk.sampledAt) % 1000000 = 0
        ∧ (∀ i, i ∈ t.pk.tripped ↔ i < 157 ∧ (920 < (junctions b).getD i 0 ∨ (i ∈ s.pk.tripped ∧ 760 ≤ (junctions b).getD i 0)))
        ∧ t.pk.msix = if ∃ i ∈ t.pk.tripped, i ∉ s.pk.tripped then s.pk.msix.modify 1 (· + 1) else s.pk.msix)
    ∧ (s.pk.limitAt + 10000000 ≤ s.pk.gts → s.pk.phase = .ready → (∀ i < 128, s.pk.hot i = false) →
      ∃ n, n ≤ s.pk.gts ∧ s.pk.gts < n + 10000000 ∧ (n - s.pk.limitAt) % 10000000 = 0 ∧
      (s.pk.overPower = false → ∃ t, exec .powerLimitStep s = .next t ∧ t = { s with pk := { s.pk with limitAt := n } })
      ∧ (∀ i, s.pk.overPower = true → s.highestPower = some i → (s.island i).target ≠ 0 →
        ∃ t, exec .powerLimitStep s = .next t ∧ t = { s with pk := t.pk, islands := t.islands }
          ∧ t.pk = { s.pk with limitAt := n }
          ∧ (t.island i).cap = some ((s.island i).target - 1) ∧ (t.island i).byPower = true
          ∧ (t.island i).setPoint = (s.island i).setPoint ∧ ∀ j, j ≠ i → t.island j = s.island j))
    ∧ (∀ i n c, (s.island i).cap = some c → (s.island i).clearedAt = some n → n + 100000000 ≤ s.pk.gts →
      ∃ t, exec (.setPointRestore i) s = .next t ∧ t = { s with islands := t.islands }
        ∧ (t.island i).cap = none ∧ (t.island i).target = (s.island i).setPoint ∧ (t.island i).byPower = false
        ∧ (t.island i).byHeat = false ∧ (t.island i).point = (s.island i).point)
    ∧ (∀ k id, id < unitCount k → s.unitFailed k id = false → ∃ t, exec (.unitFailure k id) s = .next t
        ∧ t = { s with pk := { s.pk with failed := s.pk.failed ++ [(k, id)], msix := s.pk.msix.modify 1 (· + 1) } })
    ∧ (∀ c, c < 512 → (s.core c).epoch ≠ epochOf s.pk.gts → ∃ t x, exec (.traceEpoch c) s = .next t
        ∧ t = { s with cores := t.cores } ∧ (t.core c).epoch = epochOf s.pk.gts ∧ (t.core c).trace.getLast? = some x
        ∧ x.toNat % 2 ^ 64 = s.pk.gts % 2 ^ 64 ∧ x.toNat / 2 ^ 100 % 2 ^ 6 = 61 ∧ x.toNat / 2 ^ 106 = 0)

/-- The steps of a link port. Training that ends with 2 to 8 lanes within 100 ms leads to ATTESTING with a nonce sent, and else, after
100 ms, to DOWN. An attestation that verifies, of a trusted key, leads to UP with 8 lanes and to DEGRADED with fewer; another leads to FAILED,
and so does none within 100 ms. A lost lane leaves the port DEGRADED, or FAILED with fewer than 2 lanes; retraining leaves it UP with
8; a drained port goes DOWN. An inbound request for no window is refused; a read that its window grants, of present pages, is
answered with the bytes, where the peer is attested; the first of a peer behind a switch waits, and that peer is sent a nonce. An answer to a load of a peer's page completes the access with the bytes or, where it is an error, with
REMOTE_FAULT; no answer within the timeout completes it with REMOTE_TIMEOUT, and a cancel is sent; an answer to a request that is over
counts as late. A cancel that comes first is kept, and one for a request performed is logged. A leader sends its time, and a
follower takes it over or counts at half rate (R393 to R399). The peer's TMASTER is known from training (log 14), the delay is the model's constant of
the link (log 14), and the bytes that the attestation signs are in the model's order (log 13). -/
def Obligations.LinkSteps : Prop :=
  ∀ (s : State) (i : Nat),
    let x := s.port i
    let becomes := fun (o : Out) (y : Port) => ∃ t, o = .next t ∧ t = { s with ports := t.ports }
      ∧ t.port i = y ∧ ∀ j, j ≠ i → t.port j = s.port j
    (∀ n m, x.st = .training → 2 ≤ n → n ≤ 8 → s.pk.gts ≤ x.since + 100000000 →
      ∃ t nonce, exec (.linkTrainingEnd i n m) s = .next t ∧ nonce.length = 32
        ∧ t = { s with ports := t.ports, freeCtr := s.freeCtr + 1 }
        ∧ t.port i = { x with
            st := .attesting, lanes := n, peerTmaster := m, since := s.pk.gts, nonce := nonce,
            attested := [], asks := [], outbox := x.outbox ++ [.nonce none nonce] })
    ∧ (∀ n m, x.st = .training → n ≤ 8 → x.since + 100000000 ≤ s.pk.gts → n < 2 ∨ x.since + 100000000 < s.pk.gts → becomes (exec (.linkTrainingEnd i n m) s)
        { x with st := .down, lanes := 0, since := s.pk.gts, failures := x.failures + 1 })
    ∧ (∀ key report sig, x.st = .attesting → s.pk.gts < x.since + 100000000 → x.out = [] →
      let hash := sha3 key
      let ok := mldsaVerify key (sha3 (x.nonce ++ key ++ report)) sig = true ∧ hash ∈ s.pk.trust
      ∃ t, exec (.attestationAnswer i key report sig) s = .next t ∧ t = { s with ports := t.ports } ∧ (t.port i).peer = hash
        ∧ (ok → (t.port i).st = if x.lanes = 8 then .up else .degraded) ∧ (¬ok → (t.port i).st = .failed))
    ∧ (x.st = .attesting → x.since + 100000000 ≤ s.pk.gts → x.out = [] →
        becomes (exec (.attestationTimeout i) s) { x with st := .failed, since := s.pk.gts, attested := [], asks := [] })
    ∧ (x.st = .up ∨ x.st = .degraded →
      (3 ≤ x.lanes → becomes (exec (.laneLoss i) s) { x with lanes := x.lanes - 1, st := .degraded })
      ∧ (x.lanes = 2 → x.out = [] → becomes (exec (.laneLoss i) s) 
        { x with lanes := 1, st := .failed, since := s.pk.gts, attested := [], asks := [] }))
    ∧ (x.st = .degraded → becomes (exec (.laneRetrain i) s) { x with st := .up, lanes := 8 })
    ∧ (x.st = .draining → x.out = [] → becomes (exec (.linkDrainDone i) s)
        { x with st := .down, since := s.pk.gts, attested := [], asks := [] })
    ∧ (∀ tag n off peer kind data, x.st = .up ∨ x.st = .degraded ∨ x.st = .draining → x.inb = [] →
      (s.pk.windows = [] → becomes (exec (.inboundRequest i tag n off peer kind data) s)
        { x with outbox := x.outbox ++ [.answer tag .refused] })
      ∧ (∀ w a b p, s.pk.windows = [(n, w)] → w.closing = none → w.peer = peer → off + data.length ≤ w.size → w.r = true →
        kind = .read → tag ∉ x.cancelled → x.peer = peer ∨ peer ∈ x.attested → s.rangeCause w.asid .normal (w.base + off) data.length .read = 0 →
        s.pageAt w.asid (w.base + off) = some (a, b, p) → p.st ≠ .remote →
        s.heldPiece w.asid false (piecesOf (w.base + off) data.length) = none →
        ∃ t, exec (.inboundRequest i tag n off peer kind data) s = .next t ∧ t.mem = s.mem ∧ (t.port i).inb = []
          ∧ (t.port i).outbox = x.outbox ++ [.answer tag (.ok (s.vbytes w.asid (w.base + off) data.length))])
      ∧ (∀ w, s.pk.windows = [(n, w)] → w.closing = none → w.peer = peer → off + data.length ≤ w.size → w.r = true → kind = .read →
        tag ∉ x.cancelled → x.peer ≠ peer → peer ∉ x.attested → x.asks = [] →
        ∃ t nonce, exec (.inboundRequest i tag n off peer kind data) s = .next t ∧ nonce.length = 32
          ∧ t = { s with ports := t.ports, freeCtr := s.freeCtr + 1 }
          ∧ t.port i = { x with inb := [⟨tag, n, off, kind, data, true⟩], asks := [⟨peer, nonce, s.pk.gts, [tag]⟩],
                                outbox := x.outbox ++ [.nonce (some peer) nonce] }))
    ∧ (∀ key report sig a, x.st = .up → x.asks = [a] → a.peer = sha3 key → s.pk.gts < a.since + 100000000 → a.tags = [] →
      let ok := mldsaVerify key (sha3 (a.nonce ++ key ++ report)) sig = true ∧ sha3 key ∈ s.pk.trust
      (ok → becomes (exec (.attestationAnswer i key report sig) s) { x with asks := [], attested := x.attested ++ [a.peer] })
      ∧ (¬ok → becomes (exec (.attestationAnswer i key report sig) s) { x with asks := [] }))
    ∧ (∀ tag, x.out = [] → tag < x.nextTag → ∀ a, becomes (exec (.remoteAnswer i tag a) s) { x with late := x.late + 1 })
    ∧ (∀ q id k o m u t0 c p b, x.out = [q] → q.purpose = .access id k → dget s.flight id = some o → o.work = .mem m →
      m.units[k]? = some u → m.kind = .load → dget s.teams o.team = some t0 → s.pageAt t0.asid u.addr = some (c, b, p) →
      p.back = 2 →
      let unit := fun (t : State) (v : Access) => ∃ o' m', dget t.flight id = some o' ∧ o'.work = .mem m'
        ∧ m'.units[k]? = some v
      (∀ data, s.pk.gts ≤ q.sentAt + x.timeoutUs * 1000 → ∃ t, exec (.remoteAnswer i q.tag (.ok data)) s = .next t ∧ t.mem = s.mem
        ∧ t.port i = { x with out := [], answered := x.answered + 1 }
        ∧ unit t { u with st := .done, req := none, got := data.take u.n })
      ∧ (s.pk.gts ≤ q.sentAt + x.timeoutUs * 1000 → ∃ t, exec (.remoteAnswer i q.tag .refused) s = .next t ∧ t.mem = s.mem
        ∧ t.port i = { x with out := [], faulted := x.faulted + 1 } ∧ unit t { u with st := .failed 3, req := none })
      ∧ (q.sentAt + x.timeoutUs * 1000 ≤ s.pk.gts → ∃ t, exec (.remoteTimeoutExpiry i q.tag) s = .next t ∧ t.mem = s.mem
        ∧ t.port i = { x with out := [], timedOut := x.timedOut + 1, outbox := x.outbox ++ [.cancel q.tag] }
        ∧ unit t { u with st := .failed 2, req := none }))
    ∧ (∀ tag, x.inb = [] →
      (x.performed = [] → becomes (exec (.cancelArrival i tag) s) { x with cancelled := x.cancelled ++ [tag] })
      ∧ (∀ asid va acc c, x.performed = [(tag, asid, va, acc)] → dget s.ctxs asid = some c →
        ∃ t c' f, exec (.cancelArrival i tag) s = .next t ∧ t.mem = s.mem ∧ (t.port i).performed = []
          ∧ dget t.ctxs asid = some c' ∧ c'.faultLog.getLast? = some f ∧ f.cause = 2 ∧ f.acc = acc ∧ f.va = va))
    ∧ (s.portServes i = true → s.leads i = true → x.alignedAt + 1048576 ≤ s.pk.gts → becomes (exec (.timeAlignSend i) s)
        { x with alignedAt := s.pk.gts, outbox := x.outbox ++ [.time s.pk.gts x.delay] })
    ∧ (∀ gts delay, s.portServes i = true →
      (List.range 16).find? (fun p => s.portServes p && !s.leads p) = some i → gts + delay < 2 ^ 64 →
      ∃ t, exec (.timeAlignMessage i gts delay) s = .next t ∧ t.mem = s.mem ∧ t.pk.gts = max s.pk.gts (gts + delay)
        ∧ t.pk.slowNs = 2 * (s.pk.gts - (gts + delay)))

/-! ### The machine as a whole -/

/-- Words that the manual writes out decode to the instructions they stand for: one of each class of R47 (R36, R47 to R58). -/
def Obligations.DecodedWords : Prop :=
  decodeTableWord 32 0x00018104 = some (.vadd 0 ⟨3, 1, 2, 0⟩)
  ∧ decodeTableWord 32 0x00420615 = some (.vadd 1 ⟨4, 6, 10, 1⟩)
  ∧ decodeTableWord 32 0x3002050D = some (.vfma 0 ⟨4, 5, 6, 1⟩)
  ∧ decodeTableWord 32 0x40048A20 = some (.vex2 9 10 1)
  ∧ decodeTableWord 64 0x000100026004081E = some (.ldg ⟨8, 4, 7, 2, 16, 0, 0, 0, 0, 2⟩)
  ∧ decodeTableWord 32 0x80C00860 = some (.mma 0 0 1 6 0)
  ∧ decodeTableWord 32 0xA1C80002 = some (.bseal 8 1)
  ∧ decodeTableWord 32 0xC44B1400 = some (.launch 22 20)
  ∧ decodeTableWord 32 0xC20A0003 = some (.brd 10 3)

/-- Decoding the words that encode a well-formed instruction gives it back with every operand, whatever words follow (R36,
R47). -/
def Obligations.DecodeOfEncode : Prop :=
  ∀ (i : Instr) (rest : List Word), i.isProgram = true → i.wf = true → decode [] (encode i ++ rest) = .ok (i, rest)

/-- With nothing on the agenda and no other group before it, a step of a running split of a team that issues, which stands inside a
clause before a word that decodes to an instruction, and whose group waits for no register lines, moves past the instruction's words,
counts the issue and performs the instruction; one of class 2 goes in the cycles of its issue slot alone (`Run.slotOpen`). One that
cannot issue now leaves the step to the machine's own order. After every step the machine notes what it must (`State.noted`) (R32, R47,
R152, R164; log 4, log 8). -/
def Obligations.StepRunsTheInstruction : Prop :=
  ∀ (s : State) (r : Run) (i : Instr) (rest : List Word), s.agenda = [] → s.running = some r → s.issues r.tid r.t = true →
    r.g.faultWait = false → r.g.spills = false → r.g.st = .live → r.g.idleTo ≤ s.cyc1000 r.g.core → r.slotOpen s = true →
    s.outranked exec r.gid = false → r.sp.atBoundary = false → (s.island (islandOf r.g.core)).stopped = false →
    r.g.toLoad = [] → decode (s.mapOf r.t.asid) (r.sp.words.drop r.sp.nxt) = .ok (i, rest) →
    let sp := { r.sp with pos := r.sp.nxt, nxt := r.sp.words.length - rest.length }
    let g1 := { r.g.setSplit r.slot sp with
      elig := some (nextCycle (s.cyc1000 r.g.core))
      yieldTo := if sp.switches = true then s.yieldEnd r.g.core else r.g.yieldTo }
    let s1 := (r.put s g1).modCore r.g.core fun c =>
      { c with issued := dset c.issued r.t.asid (dgetD c.issued r.t.asid 0 + 1)
               last0 := if r.g.grp % 2 = 0 then r.g.slot else c.last0
               last1 := if r.g.grp % 2 = 0 then c.last1 else r.g.slot
               lastOld := if r.g.grp % 2 = 0 then c.last0 else c.last1 }
    (∀ t, exec i s1 = .next t → step s = .next (t.noted exec)) ∧ (∀ f, exec i s1 = .fault f → step s = .fault f)
    ∧ (∀ f, exec i s1 = .refused f → step s = match s.own exec with
        | .next t => .next (t.noted exec)
        | o => o)

/-- Memory keeps its canonical form through every step. -/
def Obligations.MemoryStaysCanonical : Prop := ∀ (s t : State), Inv s → step s = .next t → Inv t

/-- The machine right after reset: memory in its canonical form; bring-up has not begun, the time stamp is 0, no response or
request stands in the mailbox, every port is DOWN with a timeout of 1,000 µs, the power limit is 2,800 W, and there is no
context, kernel, team or operation (R18, R393, R405, R409). That every byte reads as zero is the model's choice (log 2), and so are
the counts of the mailbox's rings and a port's timeout before LK_CONFIG (log 6). -/
def Obligations.StateAtReset : Prop :=
  Inv State.reset ∧ State.reset.pk.phase = .boot ∧ State.reset.pk.gts = 0 ∧ State.reset.pk.limitW = 2800
  ∧ State.reset.pk.reqProd = 0 ∧ State.reset.pk.rspProd = 0 ∧ State.reset.pk.trust = []
  ∧ (∀ i, (State.reset.port i).st = .down ∧ (State.reset.port i).timeoutUs = 1000)
  ∧ (∀ a, State.reset.mem.read a = 0) ∧ State.reset.ctxs = [] ∧ State.reset.kernels = [] ∧ State.reset.teams = []
  ∧ State.reset.flight = []
end

