-- ==== Sys2Proof/Laws/PerInstr.lean ====
section
/-!
SUPPORT. Laws of each instruction as syntax: an instruction has at most two words (R36).
-/
namespace Sys2Proof.Laws

/-- No instruction has more than two words. -/
def EncodeLength.Statement (i : Instr) : Prop := (encode i).length ≤ 2

theorem EncodeLength.vadd (w : Bit) (f : F3) : EncodeLength.Statement (.vadd w f) := Nat.le_of_ble_eq_true rfl
theorem EncodeLength.vsub (w : Bit) (f : F3) : EncodeLength.Statement (.vsub w f) := Nat.le_of_ble_eq_true rfl
theorem EncodeLength.vmullo (w : Bit) (f : F3) : EncodeLength.Statement (.vmullo w f) := Nat.le_of_ble_eq_true rfl
theorem EncodeLength.vmulhi (u : Bit) (f : F3) : EncodeLength.Statement (.vmulhi u f) := Nat.le_of_ble_eq_true rfl
theorem EncodeLength.vmad (w : Bit) (f : F3) : EncodeLength.Statement (.vmad w f) := Nat.le_of_ble_eq_true rfl
theorem EncodeLength.vmin (u : Bit) (f : F3) : EncodeLength.Statement (.vmin u f) := Nat.le_of_ble_eq_true rfl
theorem EncodeLength.vmax (u : Bit) (f : F3) : EncodeLength.Statement (.vmax u f) := Nat.le_of_ble_eq_true rfl
theorem EncodeLength.vabs (f : U3) : EncodeLength.Statement (.vabs f) := Nat.le_of_ble_eq_true rfl
theorem EncodeLength.vneg (f : U3) : EncodeLength.Statement (.vneg f) := Nat.le_of_ble_eq_true rfl
theorem EncodeLength.vand (f : F3) : EncodeLength.Statement (.vand f) := Nat.le_of_ble_eq_true rfl
theorem EncodeLength.vor (f : F3) : EncodeLength.Statement (.vor f) := Nat.le_of_ble_eq_true rfl
theorem EncodeLength.vxor (f : F3) : EncodeLength.Statement (.vxor f) := Nat.le_of_ble_eq_true rfl
theorem EncodeLength.vnot (f : U3) : EncodeLength.Statement (.vnot f) := Nat.le_of_ble_eq_true rfl
theorem EncodeLength.vshl (f : F3) : EncodeLength.Statement (.vshl f) := Nat.le_of_ble_eq_true rfl
theorem EncodeLength.vshr (f : F3) : EncodeLength.Statement (.vshr f) := Nat.le_of_ble_eq_true rfl
theorem EncodeLength.vsar (f : F3) : EncodeLength.Statement (.vsar f) := Nat.le_of_ble_eq_true rfl
theorem EncodeLength.vrot (f : F3) : EncodeLength.Statement (.vrot f) := Nat.le_of_ble_eq_true rfl
theorem EncodeLength.vpopc (f : U3) : EncodeLength.Statement (.vpopc f) := Nat.le_of_ble_eq_true rfl
theorem EncodeLength.vclz (f : U3) : EncodeLength.Statement (.vclz f) := Nat.le_of_ble_eq_true rfl
theorem EncodeLength.vbfe (u : Bit) (f : F3) : EncodeLength.Statement (.vbfe u f) := Nat.le_of_ble_eq_true rfl
theorem EncodeLength.vbfi (f : F3) : EncodeLength.Statement (.vbfi f) := Nat.le_of_ble_eq_true rfl
theorem EncodeLength.vcmp (c : BitVec 4) (f : F3) : EncodeLength.Statement (.vcmp c f) := Nat.le_of_ble_eq_true rfl
theorem EncodeLength.vmovl (d : Reg7) (lit : Word) : EncodeLength.Statement (.vmovl d lit) := Nat.le_of_ble_eq_true rfl
theorem EncodeLength.vaddc (f : F3) (co ci : SReg) : EncodeLength.Statement (.vaddc f co ci) := Nat.le_of_ble_eq_true rfl
theorem EncodeLength.vsubb (f : F3) (co ci : SReg) : EncodeLength.Statement (.vsubb f co ci) := Nat.le_of_ble_eq_true rfl
theorem EncodeLength.vsel (f : F3) (sm : SReg) : EncodeLength.Statement (.vsel f sm) := Nat.le_of_ble_eq_true rfl
theorem EncodeLength.vmov (w : Bit) (f : U3) : EncodeLength.Statement (.vmov w f) := Nat.le_of_ble_eq_true rfl
theorem EncodeLength.sadd (f : S3) : EncodeLength.Statement (.sadd f) := Nat.le_of_ble_eq_true rfl
theorem EncodeLength.ssub (f : S3) : EncodeLength.Statement (.ssub f) := Nat.le_of_ble_eq_true rfl
theorem EncodeLength.smullo (f : S3) : EncodeLength.Statement (.smullo f) := Nat.le_of_ble_eq_true rfl
theorem EncodeLength.smulhiI64 (f : S3) : EncodeLength.Statement (.smulhiI64 f) := Nat.le_of_ble_eq_true rfl
theorem EncodeLength.smulhiN64 (f : S3) : EncodeLength.Statement (.smulhiN64 f) := Nat.le_of_ble_eq_true rfl
theorem EncodeLength.smad (f : S3) : EncodeLength.Statement (.smad f) := Nat.le_of_ble_eq_true rfl
theorem EncodeLength.smin (u : Bit) (f : S3) : EncodeLength.Statement (.smin u f) := Nat.le_of_ble_eq_true rfl
theorem EncodeLength.smax (u : Bit) (f : S3) : EncodeLength.Statement (.smax u f) := Nat.le_of_ble_eq_true rfl
theorem EncodeLength.sabs (f : SU) : EncodeLength.Statement (.sabs f) := Nat.le_of_ble_eq_true rfl
theorem EncodeLength.sneg (f : SU) : EncodeLength.Statement (.sneg f) := Nat.le_of_ble_eq_true rfl
theorem EncodeLength.sand (f : S3) : EncodeLength.Statement (.sand f) := Nat.le_of_ble_eq_true rfl
theorem EncodeLength.sor (f : S3) : EncodeLength.Statement (.sor f) := Nat.le_of_ble_eq_true rfl
theorem EncodeLength.sxor (f : S3) : EncodeLength.Statement (.sxor f) := Nat.le_of_ble_eq_true rfl
theorem EncodeLength.snot (f : SU) : EncodeLength.Statement (.snot f) := Nat.le_of_ble_eq_true rfl
theorem EncodeLength.sshl (f : S3) : EncodeLength.Statement (.sshl f) := Nat.le_of_ble_eq_true rfl
theorem EncodeLength.sshr (f : S3) : EncodeLength.Statement (.sshr f) := Nat.le_of_ble_eq_true rfl
theorem EncodeLength.ssar (f : S3) : EncodeLength.Statement (.ssar f) := Nat.le_of_ble_eq_true rfl
theorem EncodeLength.srot (f : S3) : EncodeLength.Statement (.srot f) := Nat.le_of_ble_eq_true rfl
theorem EncodeLength.spopc (f : SU) : EncodeLength.Statement (.spopc f) := Nat.le_of_ble_eq_true rfl
theorem EncodeLength.sclz (f : SU) : EncodeLength.Statement (.sclz f) := Nat.le_of_ble_eq_true rfl
theorem EncodeLength.sbfe (u : Bit) (f : S3) : EncodeLength.Statement (.sbfe u f) := Nat.le_of_ble_eq_true rfl
theorem EncodeLength.sbfi (f : S3) : EncodeLength.Statement (.sbfi f) := Nat.le_of_ble_eq_true rfl
theorem EncodeLength.smov (f : SU) : EncodeLength.Statement (.smov f) := Nat.le_of_ble_eq_true rfl
theorem EncodeLength.ssel (f : S3) (sm : SReg) : EncodeLength.Statement (.ssel f sm) := Nat.le_of_ble_eq_true rfl
theorem EncodeLength.scmp (c : BitVec 4) (f : S3) : EncodeLength.Statement (.scmp c f) := Nat.le_of_ble_eq_true rfl
theorem EncodeLength.saddc (f : S3) (co ci : SReg) : EncodeLength.Statement (.saddc f co ci) := Nat.le_of_ble_eq_true rfl
theorem EncodeLength.ssubb (f : S3) (co ci : SReg) : EncodeLength.Statement (.ssubb f co ci) := Nat.le_of_ble_eq_true rfl
theorem EncodeLength.smovl (d : Reg7) (hi : Bit) (lit : Word) : EncodeLength.Statement (.smovl d hi lit) := Nat.le_of_ble_eq_true rfl
theorem EncodeLength.saddl (d a : Reg7) (lit : Word) : EncodeLength.Statement (.saddl d a lit) := Nat.le_of_ble_eq_true rfl
theorem EncodeLength.vfadd (r : BitVec 2) (f : F3) : EncodeLength.Statement (.vfadd r f) := Nat.le_of_ble_eq_true rfl
theorem EncodeLength.vfsub (r : BitVec 2) (f : F3) : EncodeLength.Statement (.vfsub r f) := Nat.le_of_ble_eq_true rfl
theorem EncodeLength.vfmul (r : BitVec 2) (f : F3) : EncodeLength.Statement (.vfmul r f) := Nat.le_of_ble_eq_true rfl
theorem EncodeLength.vfma (r : BitVec 2) (f : F3) : EncodeLength.Statement (.vfma r f) := Nat.le_of_ble_eq_true rfl
theorem EncodeLength.vfmal (r : BitVec 2) (f : F3) (lit : Word) : EncodeLength.Statement (.vfmal r f lit) := Nat.le_of_ble_eq_true rfl
theorem EncodeLength.vfmin (f : F3) : EncodeLength.Statement (.vfmin f) := Nat.le_of_ble_eq_true rfl
theorem EncodeLength.vfmax (f : F3) : EncodeLength.Statement (.vfmax f) := Nat.le_of_ble_eq_true rfl
theorem EncodeLength.vfcmp (c : BitVec 3) (f : F3) : EncodeLength.Statement (.vfcmp c f) := Nat.le_of_ble_eq_true rfl
theorem EncodeLength.vfclass (f : U3) : EncodeLength.Statement (.vfclass f) := Nat.le_of_ble_eq_true rfl
theorem EncodeLength.vfrnd (r : BitVec 2) (f : U3) : EncodeLength.Statement (.vfrnd r f) := Nat.le_of_ble_eq_true rfl
theorem EncodeLength.vfcvt (sat : Bit) (r : BitVec 2) (d a : Reg7) (dt st : BitVec 4) : EncodeLength.Statement (.vfcvt sat r d a dt st) := Nat.le_of_ble_eq_true rfl
theorem EncodeLength.vfpack (bf : Bit) (f : F3) : EncodeLength.Statement (.vfpack bf f) := Nat.le_of_ble_eq_true rfl
theorem EncodeLength.vhadd2 (bf : Bit) (f : F3) : EncodeLength.Statement (.vhadd2 bf f) := Nat.le_of_ble_eq_true rfl
theorem EncodeLength.vhmul2 (bf : Bit) (f : F3) : EncodeLength.Statement (.vhmul2 bf f) := Nat.le_of_ble_eq_true rfl
theorem EncodeLength.vhfma2 (bf : Bit) (f : F3) : EncodeLength.Statement (.vhfma2 bf f) := Nat.le_of_ble_eq_true rfl
theorem EncodeLength.vex2 (d a : Reg7) (dc : DcField) : EncodeLength.Statement (.vex2 d a dc) := Nat.le_of_ble_eq_true rfl
theorem EncodeLength.vlg2 (d a : Reg7) (dc : DcField) : EncodeLength.Statement (.vlg2 d a dc) := Nat.le_of_ble_eq_true rfl
theorem EncodeLength.vrcp (d a : Reg7) (dc : DcField) : EncodeLength.Statement (.vrcp d a dc) := Nat.le_of_ble_eq_true rfl
theorem EncodeLength.vrsq (d a : Reg7) (dc : DcField) : EncodeLength.Statement (.vrsq d a dc) := Nat.le_of_ble_eq_true rfl
theorem EncodeLength.vsqrt (d a : Reg7) (dc : DcField) : EncodeLength.Statement (.vsqrt d a dc) := Nat.le_of_ble_eq_true rfl
theorem EncodeLength.vsint (d a : Reg7) (dc : DcField) : EncodeLength.Statement (.vsint d a dc) := Nat.le_of_ble_eq_true rfl
theorem EncodeLength.vcost (d a : Reg7) (dc : DcField) : EncodeLength.Statement (.vcost d a dc) := Nat.le_of_ble_eq_true rfl
theorem EncodeLength.vtanh (d a : Reg7) (dc : DcField) : EncodeLength.Statement (.vtanh d a dc) := Nat.le_of_ble_eq_true rfl
theorem EncodeLength.vshflSel (f : F3) (dc : DcField) (seg : BitVec 3) : EncodeLength.Statement (.vshflSel f dc seg) := Nat.le_of_ble_eq_true rfl
theorem EncodeLength.vshflRol (f : F3) (dc : DcField) (seg : BitVec 3) : EncodeLength.Statement (.vshflRol f dc seg) := Nat.le_of_ble_eq_true rfl
theorem EncodeLength.vshflSlide (f : F3) (dc : DcField) (seg : BitVec 3) : EncodeLength.Statement (.vshflSlide f dc seg) := Nat.le_of_ble_eq_true rfl
theorem EncodeLength.vshflAx (f : F3) (dc : DcField) (seg : BitVec 3) : EncodeLength.Statement (.vshflAx f dc seg) := Nat.le_of_ble_eq_true rfl
theorem EncodeLength.vvoteAny (d a : Reg7) (dc : DcField) : EncodeLength.Statement (.vvoteAny d a dc) := Nat.le_of_ble_eq_true rfl
theorem EncodeLength.vvoteAll (d a : Reg7) (dc : DcField) : EncodeLength.Statement (.vvoteAll d a dc) := Nat.le_of_ble_eq_true rfl
theorem EncodeLength.vvoteBallot (d a : Reg7) (dc : DcField) : EncodeLength.Statement (.vvoteBallot d a dc) := Nat.le_of_ble_eq_true rfl
theorem EncodeLength.vred (d a : Reg7) (op : BitVec 4) (x : Bit) (dc : DcField) : EncodeLength.Statement (.vred d a op x dc) := Nat.le_of_ble_eq_true rfl
theorem EncodeLength.vscan (d a : Reg7) (op : BitVec 4) (x : Bit) (dc : DcField) : EncodeLength.Statement (.vscan d a op x dc) := Nat.le_of_ble_eq_true rfl
theorem EncodeLength.vhamm (w : Bit) (f : HammF) : EncodeLength.Statement (.vhamm w f) := Nat.le_of_ble_eq_true rfl
theorem EncodeLength.vlanes (d : Reg7) (sm sc : SReg) (dc : DcField) : EncodeLength.Statement (.vlanes d sm sc dc) := Nat.le_of_ble_eq_true rfl
theorem EncodeLength.ldg (m : Fm) : EncodeLength.Statement (.ldg m) := Nat.le_of_ble_eq_true rfl
theorem EncodeLength.stg (m : Fm) : EncodeLength.Statement (.stg m) := Nat.le_of_ble_eq_true rfl
theorem EncodeLength.ldgu (m : Fm) : EncodeLength.Statement (.ldgu m) := Nat.le_of_ble_eq_true rfl
theorem EncodeLength.lds (m : Fm) : EncodeLength.Statement (.lds m) := Nat.le_of_ble_eq_true rfl
theorem EncodeLength.sts (m : Fm) : EncodeLength.Statement (.sts m) := Nat.le_of_ble_eq_true rfl
theorem EncodeLength.ldx (m : Fm) : EncodeLength.Statement (.ldx m) := Nat.le_of_ble_eq_true rfl
theorem EncodeLength.stx (m : Fm) : EncodeLength.Statement (.stx m) := Nat.le_of_ble_eq_true rfl
theorem EncodeLength.ldrot (m : Fm) : EncodeLength.Statement (.ldrot m) := Nat.le_of_ble_eq_true rfl
theorem EncodeLength.stnt (m : Fm) : EncodeLength.Statement (.stnt m) := Nat.le_of_ble_eq_true rfl
theorem EncodeLength.pref (m : Fm) : EncodeLength.Statement (.pref m) := Nat.le_of_ble_eq_true rfl
theorem EncodeLength.drain (dc : DcField) : EncodeLength.Statement (.drain dc) := Nat.le_of_ble_eq_true rfl
theorem EncodeLength.cinv (a b : SReg) (all : Bit) (dc : DcField) : EncodeLength.Statement (.cinv a b all dc) := Nat.le_of_ble_eq_true rfl
theorem EncodeLength.seal (f : Ch3) : EncodeLength.Statement (.seal f) := Nat.le_of_ble_eq_true rfl
theorem EncodeLength.unseal (f : Ch3) : EncodeLength.Statement (.unseal f) := Nat.le_of_ble_eq_true rfl
theorem EncodeLength.atomg (k : BitVec 4) (m : Fm) : EncodeLength.Statement (.atomg k m) := Nat.le_of_ble_eq_true rfl
theorem EncodeLength.casg (m : Fm) : EncodeLength.Statement (.casg m) := Nat.le_of_ble_eq_true rfl
theorem EncodeLength.atoms (k : BitVec 4) (m : Fm) : EncodeLength.Statement (.atoms k m) := Nat.le_of_ble_eq_true rfl
theorem EncodeLength.cass (m : Fm) : EncodeLength.Statement (.cass m) := Nat.le_of_ble_eq_true rfl
theorem EncodeLength.atomx (k : BitVec 4) (m : Fm) : EncodeLength.Statement (.atomx k m) := Nat.le_of_ble_eq_true rfl
theorem EncodeLength.atomxCas (m : Fm) : EncodeLength.Statement (.atomxCas m) := Nat.le_of_ble_eq_true rfl
theorem EncodeLength.thdef (h : BitVec 4) (a : SReg) : EncodeLength.Statement (.thdef h a) := Nat.le_of_ble_eq_true rfl
theorem EncodeLength.acqb (acc : BitVec 3) (d : SReg) (dc : DcField) : EncodeLength.Statement (.acqb acc d dc) := Nat.le_of_ble_eq_true rfl
theorem EncodeLength.relb (acc : BitVec 3) : EncodeLength.Statement (.relb acc) := Nat.le_of_ble_eq_true rfl
theorem EncodeLength.mma (acc : BitVec 3) (ha hb : BitVec 4) (vf : Reg7) (dc : DcField) : EncodeLength.Statement (.mma acc ha hb vf dc) := Nat.le_of_ble_eq_true rfl
theorem EncodeLength.mzero (acc : BitVec 3) (dc : DcField) : EncodeLength.Statement (.mzero acc dc) := Nat.le_of_ble_eq_true rfl
theorem EncodeLength.mdrn (f : MdrnF) : EncodeLength.Statement (.mdrn f) := Nat.le_of_ble_eq_true rfl
theorem EncodeLength.mstat (d : SReg) (dc : DcField) : EncodeLength.Statement (.mstat d dc) := Nat.le_of_ble_eq_true rfl
theorem EncodeLength.pcpy (w : Pw) (clip : SReg) (cr : Bit) (bk : BitVec 4) : EncodeLength.Statement (.pcpy w clip cr bk) := Nat.le_of_ble_eq_true rfl
theorem EncodeLength.pput (w : Pw) (clip : SReg) (cr : Bit) (bk : BitVec 4) : EncodeLength.Statement (.pput w clip cr bk) := Nat.le_of_ble_eq_true rfl
theorem EncodeLength.pgath (w : Pw) (si : SReg) (cr : Bit) (bk : BitVec 4) (wt : Bit) (pg : BitVec 6) : EncodeLength.Statement (.pgath w si cr bk wt pg) := Nat.le_of_ble_eq_true rfl
theorem EncodeLength.pscat (w : Pw) (si : SReg) (cr : Bit) (bk : BitVec 4) : EncodeLength.Statement (.pscat w si cr bk) := Nat.le_of_ble_eq_true rfl
theorem EncodeLength.pstream (w : Pw) (clip : SReg) : EncodeLength.Statement (.pstream w clip) := Nat.le_of_ble_eq_true rfl
theorem EncodeLength.pstop (a : SReg) (dc : DcField) : EncodeLength.Statement (.pstop a dc) := Nat.le_of_ble_eq_true rfl
theorem EncodeLength.pquant (w : Pw) (dfmt : BitVec 4) (cr : Bit) (bk : BitVec 4) : EncodeLength.Statement (.pquant w dfmt cr bk) := Nat.le_of_ble_eq_true rfl
theorem EncodeLength.bseal (d : SReg) (dc : DcField) : EncodeLength.Statement (.bseal d dc) := Nat.le_of_ble_eq_true rfl
theorem EncodeLength.bwait (a : SReg) : EncodeLength.Statement (.bwait a) := Nat.le_of_ble_eq_true rfl
theorem EncodeLength.pcred (bk : BitVec 4) (a : SReg) : EncodeLength.Statement (.pcred bk a) := Nat.le_of_ble_eq_true rfl
theorem EncodeLength.fence (ord : BitVec 2) (scope : BitVec 3) : EncodeLength.Statement (.fence ord scope) := Nat.le_of_ble_eq_true rfl
theorem EncodeLength.dwait (k : DcField) (n : BitVec 6) : EncodeLength.Statement (.dwait k n) := Nat.le_of_ble_eq_true rfl
theorem EncodeLength.waitc (d a b : SReg) : EncodeLength.Statement (.waitc d a b) := Nat.le_of_ble_eq_true rfl
theorem EncodeLength.timewait (a : SReg) (rel : Bit) : EncodeLength.Statement (.timewait a rel) := Nat.le_of_ble_eq_true rfl
theorem EncodeLength.bru (c : BitVec 2) (s : SReg) (off : BitVec 16) : EncodeLength.Statement (.bru c s off) := Nat.le_of_ble_eq_true rfl
theorem EncodeLength.brd (s : SReg) (off : BitVec 16) : EncodeLength.Statement (.brd s off) := Nat.le_of_ble_eq_true rfl
theorem EncodeLength.jmp (off : BitVec 16) : EncodeLength.Statement (.jmp off) := Nat.le_of_ble_eq_true rfl
theorem EncodeLength.call (s : SReg) (off : BitVec 16) : EncodeLength.Statement (.call s off) := Nat.le_of_ble_eq_true rfl
theorem EncodeLength.ret (a : SReg) : EncodeLength.Statement (.ret a) := Nat.le_of_ble_eq_true rfl
theorem EncodeLength.exit : EncodeLength.Statement (.exit) := Nat.le_of_ble_eq_true rfl
theorem EncodeLength.trap (code : BitVec 16) : EncodeLength.Statement (.trap code) := Nat.le_of_ble_eq_true rfl
theorem EncodeLength.passpri (a : SReg) (i : Bit) (g : BitVec 6) : EncodeLength.Statement (.passpri a i g) := Nat.le_of_ble_eq_true rfl
theorem EncodeLength.yield : EncodeLength.Statement (.yield) := Nat.le_of_ble_eq_true rfl
theorem EncodeLength.sleep (a : SReg) (i : Bit) (n : BitVec 15) : EncodeLength.Statement (.sleep a i n) := Nat.le_of_ble_eq_true rfl
theorem EncodeLength.launch (d a : Reg7) : EncodeLength.Statement (.launch d a) := Nat.le_of_ble_eq_true rfl
theorem EncodeLength.enq (d a : Reg7) : EncodeLength.Statement (.enq d a) := Nat.le_of_ble_eq_true rfl
theorem EncodeLength.brk (code : BitVec 16) : EncodeLength.Statement (.brk code) := Nat.le_of_ble_eq_true rfl
theorem EncodeLength.binit (k : BitVec 4) (t b p : SReg) : EncodeLength.Statement (.binit k t b p) := Nat.le_of_ble_eq_true rfl
theorem EncodeLength.barv (k : BitVec 4) (d : SReg) (dc : DcField) : EncodeLength.Statement (.barv k d dc) := Nat.le_of_ble_eq_true rfl
theorem EncodeLength.barb (k : BitVec 4) (a : SReg) : EncodeLength.Statement (.barb k a) := Nat.le_of_ble_eq_true rfl
theorem EncodeLength.bwaitp (k : BitVec 4) (p : SReg) : EncodeLength.Statement (.bwaitp k p) := Nat.le_of_ble_eq_true rfl
theorem EncodeLength.btest (k : BitVec 4) (d p : SReg) (sel : Bit) (dc : DcField) : EncodeLength.Statement (.btest k d p sel dc) := Nat.le_of_ble_eq_true rfl
theorem EncodeLength.bdrop (k : BitVec 4) : EncodeLength.Statement (.bdrop k) := Nat.le_of_ble_eq_true rfl
theorem EncodeLength.alloc (f : Ch) : EncodeLength.Statement (.alloc f) := Nat.le_of_ble_eq_true rfl
theorem EncodeLength.free (f : Ch) : EncodeLength.Statement (.free f) := Nat.le_of_ble_eq_true rfl
theorem EncodeLength.sknew (f : Ch) : EncodeLength.Statement (.sknew f) := Nat.le_of_ble_eq_true rfl
theorem EncodeLength.skapp (f : Ch3) (pb : Bit) : EncodeLength.Statement (.skapp f pb) := Nat.le_of_ble_eq_true rfl
theorem EncodeLength.sklook (f : Ch) : EncodeLength.Statement (.sklook f) := Nat.le_of_ble_eq_true rfl
theorem EncodeLength.sktrim (f : Ch3) : EncodeLength.Statement (.sktrim f) := Nat.le_of_ble_eq_true rfl
theorem EncodeLength.sktrimDel (f : Ch) : EncodeLength.Statement (.sktrimDel f) := Nat.le_of_ble_eq_true rfl
theorem EncodeLength.skclone (f : Ch) : EncodeLength.Statement (.skclone f) := Nat.le_of_ble_eq_true rfl
theorem EncodeLength.skset (f : Ch3) : EncodeLength.Statement (.skset f) := Nat.le_of_ble_eq_true rfl
theorem EncodeLength.skswap (f : Ch3) : EncodeLength.Statement (.skswap f) := Nat.le_of_ble_eq_true rfl
theorem EncodeLength.refinc (f : Ch) : EncodeLength.Statement (.refinc f) := Nat.le_of_ble_eq_true rfl
theorem EncodeLength.refdec (f : Ch) : EncodeLength.Statement (.refdec f) := Nat.le_of_ble_eq_true rfl
theorem EncodeLength.poolq (f : Ch) : EncodeLength.Statement (.poolq f) := Nat.le_of_ble_eq_true rfl
theorem EncodeLength.asdecl (f : Ch3) : EncodeLength.Statement (.asdecl f) := Nat.le_of_ble_eq_true rfl
theorem EncodeLength.asdrop (f : Ch) : EncodeLength.Statement (.asdrop f) := Nat.le_of_ble_eq_true rfl
theorem EncodeLength.asqry (f : Ch) : EncodeLength.Statement (.asqry f) := Nat.le_of_ble_eq_true rfl
theorem EncodeLength.vstat (d : SReg) (dc : DcField) : EncodeLength.Statement (.vstat d dc) := Nat.le_of_ble_eq_true rfl
theorem EncodeLength.srd (d : Reg7) (reg : BitVec 8) : EncodeLength.Statement (.srd d reg) := Nat.le_of_ble_eq_true rfl
theorem EncodeLength.swr (a : Reg7) (reg : BitVec 8) : EncodeLength.Statement (.swr a reg) := Nat.le_of_ble_eq_true rfl
theorem EncodeLength.tmark (a : SReg) (code : BitVec 16) : EncodeLength.Statement (.tmark a code) := Nat.le_of_ble_eq_true rfl
theorem EncodeLength.clauseFetch (g : Nat) : EncodeLength.Statement (.clauseFetch g) := Nat.le_of_ble_eq_true rfl
theorem EncodeLength.laneFaultTimeout (g : Nat) : EncodeLength.Statement (.laneFaultTimeout g) := Nat.le_of_ble_eq_true rfl
theorem EncodeLength.spill (g slot : Nat) : EncodeLength.Statement (.spill g slot) := Nat.le_of_ble_eq_true rfl
theorem EncodeLength.binCloseTimeout (core bin : Nat) : EncodeLength.Statement (.binCloseTimeout core bin) := Nat.le_of_ble_eq_true rfl
theorem EncodeLength.fosterGroupForm (core bin : Nat) : EncodeLength.Statement (.fosterGroupForm core bin) := Nat.le_of_ble_eq_true rfl
theorem EncodeLength.stoodDownReturn (g : Nat) : EncodeLength.Statement (.stoodDownReturn g) := Nat.le_of_ble_eq_true rfl
theorem EncodeLength.timewaitExpiry (g slot : Nat) : EncodeLength.Statement (.timewaitExpiry g slot) := Nat.le_of_ble_eq_true rfl
theorem EncodeLength.sleepExpiry (g slot : Nat) : EncodeLength.Statement (.sleepExpiry g slot) := Nat.le_of_ble_eq_true rfl
theorem EncodeLength.memcapUpdate (core : Nat) : EncodeLength.Statement (.memcapUpdate core) := Nat.le_of_ble_eq_true rfl
theorem EncodeLength.registerStoreFill (g line : Nat) : EncodeLength.Statement (.registerStoreFill g line) := Nat.le_of_ble_eq_true rfl
theorem EncodeLength.sfuResult (op : Nat) (lanes : LaneMask) : EncodeLength.Statement (.sfuResult op lanes) := Nat.le_of_ble_eq_true rfl
theorem EncodeLength.crosslaneResult (op : Nat) (lanes : LaneMask) : EncodeLength.Statement (.crosslaneResult op lanes) := Nat.le_of_ble_eq_true rfl
theorem EncodeLength.memoryAccessComplete (op : Nat) (lanes : LaneMask) : EncodeLength.Statement (.memoryAccessComplete op lanes) := Nat.le_of_ble_eq_true rfl
theorem EncodeLength.atomicComplete (op : Nat) (lanes : LaneMask) : EncodeLength.Statement (.atomicComplete op lanes) := Nat.le_of_ble_eq_true rfl
theorem EncodeLength.drainComplete (op : Nat) : EncodeLength.Statement (.drainComplete op) := Nat.le_of_ble_eq_true rfl
theorem EncodeLength.sealComplete (op : Nat) : EncodeLength.Statement (.sealComplete op) := Nat.le_of_ble_eq_true rfl
theorem EncodeLength.unsealComplete (op : Nat) : EncodeLength.Statement (.unsealComplete op) := Nat.le_of_ble_eq_true rfl
theorem EncodeLength.waitcRecheck (g slot : Nat) : EncodeLength.Statement (.waitcRecheck g slot) := Nat.le_of_ble_eq_true rfl
theorem EncodeLength.homeSliceAccess (op unit : Nat) : EncodeLength.Statement (.homeSliceAccess op unit) := Nat.le_of_ble_eq_true rfl
theorem EncodeLength.sieveEmit (core : Nat) : EncodeLength.Statement (.sieveEmit core) := Nat.le_of_ble_eq_true rfl
theorem EncodeLength.riddleRecord (cluster : Nat) : EncodeLength.Statement (.riddleRecord cluster) := Nat.le_of_ble_eq_true rfl
theorem EncodeLength.riddleForward (cluster : Nat) : EncodeLength.Statement (.riddleForward cluster) := Nat.le_of_ble_eq_true rfl
theorem EncodeLength.mpFaultAccept : EncodeLength.Statement (.mpFaultAccept) := Nat.le_of_ble_eq_true rfl
theorem EncodeLength.promotionStart (asid va : Nat) : EncodeLength.Statement (.promotionStart asid va) := Nat.le_of_ble_eq_true rfl
theorem EncodeLength.promotionDone (asid va : Nat) : EncodeLength.Statement (.promotionDone asid va) := Nat.le_of_ble_eq_true rfl
theorem EncodeLength.promotionFail (asid va : Nat) : EncodeLength.Statement (.promotionFail asid va) := Nat.le_of_ble_eq_true rfl
theorem EncodeLength.promotionTimeout (asid va : Nat) : EncodeLength.Statement (.promotionTimeout asid va) := Nat.le_of_ble_eq_true rfl
theorem EncodeLength.coreWake (core asid va : Nat) : EncodeLength.Statement (.coreWake core asid va) := Nat.le_of_ble_eq_true rfl
theorem EncodeLength.mpMigration (asid va stack : Nat) : EncodeLength.Statement (.mpMigration asid va stack) := Nat.le_of_ble_eq_true rfl
theorem EncodeLength.migrationDone (asid va : Nat) : EncodeLength.Statement (.migrationDone asid va) := Nat.le_of_ble_eq_true rfl
theorem EncodeLength.evictionDone (asid va : Nat) : EncodeLength.Statement (.evictionDone asid va) := Nat.le_of_ble_eq_true rfl
theorem EncodeLength.heatDecay : EncodeLength.Statement (.heatDecay) := Nat.le_of_ble_eq_true rfl
theorem EncodeLength.pageCommandEffect (n : Nat) : EncodeLength.Statement (.pageCommandEffect n) := Nat.le_of_ble_eq_true rfl
theorem EncodeLength.distributorSearch (cluster : Nat) : EncodeLength.Statement (.distributorSearch cluster) := Nat.le_of_ble_eq_true rfl
theorem EncodeLength.distributorPlace (cluster : Nat) : EncodeLength.Statement (.distributorPlace cluster) := Nat.le_of_ble_eq_true rfl
theorem EncodeLength.windowCopyOutDone (team : Nat) : EncodeLength.Statement (.windowCopyOutDone team) := Nat.le_of_ble_eq_true rfl
theorem EncodeLength.barrierSpill (team reg : Nat) : EncodeLength.Statement (.barrierSpill team reg) := Nat.le_of_ble_eq_true rfl
theorem EncodeLength.bankEvict (loom team : Nat) : EncodeLength.Statement (.bankEvict loom team) := Nat.le_of_ble_eq_true rfl
theorem EncodeLength.preemptionComplete (team : Nat) : EncodeLength.Statement (.preemptionComplete team) := Nat.le_of_ble_eq_true rfl
theorem EncodeLength.swapOut (team : Nat) : EncodeLength.Statement (.swapOut team) := Nat.le_of_ble_eq_true rfl
theorem EncodeLength.teamRetire (team : Nat) : EncodeLength.Statement (.teamRetire team) := Nat.le_of_ble_eq_true rfl
theorem EncodeLength.kernelComplete (kernel : Nat) : EncodeLength.Statement (.kernelComplete kernel) := Nat.le_of_ble_eq_true rfl
theorem EncodeLength.kernelFaulted (kernel : Nat) : EncodeLength.Statement (.kernelFaulted kernel) := Nat.le_of_ble_eq_true rfl
theorem EncodeLength.commitPoint (team : Nat) : EncodeLength.Statement (.commitPoint team) := Nat.le_of_ble_eq_true rfl
theorem EncodeLength.hoopReleaseArrival (slice : Nat) : EncodeLength.Statement (.hoopReleaseArrival slice) := Nat.le_of_ble_eq_true rfl
theorem EncodeLength.woundArrival (team : Nat) : EncodeLength.Statement (.woundArrival team) := Nat.le_of_ble_eq_true rfl
theorem EncodeLength.versionDiscardDone (team : Nat) : EncodeLength.Statement (.versionDiscardDone team) := Nat.le_of_ble_eq_true rfl
theorem EncodeLength.teamRestart (team : Nat) : EncodeLength.Statement (.teamRestart team) := Nat.le_of_ble_eq_true rfl
theorem EncodeLength.tokenGrant : EncodeLength.Statement (.tokenGrant) := Nat.le_of_ble_eq_true rfl
theorem EncodeLength.asdeclDeclare (op : Nat) : EncodeLength.Statement (.asdeclDeclare op) := Nat.le_of_ble_eq_true rfl
theorem EncodeLength.porterChecksDone (op : Nat) : EncodeLength.Statement (.porterChecksDone op) := Nat.le_of_ble_eq_true rfl
theorem EncodeLength.porterCommandComplete (op : Nat) : EncodeLength.Statement (.porterCommandComplete op) := Nat.le_of_ble_eq_true rfl
theorem EncodeLength.porterStop (op : Nat) : EncodeLength.Statement (.porterStop op) := Nat.le_of_ble_eq_true rfl
theorem EncodeLength.pstreamTileStart (core stream : Nat) : EncodeLength.Statement (.pstreamTileStart core stream) := Nat.le_of_ble_eq_true rfl
theorem EncodeLength.asyncCreditTrap (g : Nat) : EncodeLength.Statement (.asyncCreditTrap g) := Nat.le_of_ble_eq_true rfl
theorem EncodeLength.loomPassStart (loom : Nat) : EncodeLength.Statement (.loomPassStart loom) := Nat.le_of_ble_eq_true rfl
theorem EncodeLength.loomPassEnd (loom : Nat) : EncodeLength.Statement (.loomPassEnd loom) := Nat.le_of_ble_eq_true rfl
theorem EncodeLength.mzeroDone (op : Nat) : EncodeLength.Statement (.mzeroDone op) := Nat.le_of_ble_eq_true rfl
theorem EncodeLength.mdrnDone (op : Nat) : EncodeLength.Statement (.mdrnDone op) := Nat.le_of_ble_eq_true rfl
theorem EncodeLength.bankZeroingDone (loom bank : Nat) : EncodeLength.Statement (.bankZeroingDone loom bank) := Nat.le_of_ble_eq_true rfl
theorem EncodeLength.chandlerOpComplete (op : Nat) : EncodeLength.Statement (.chandlerOpComplete op) := Nat.le_of_ble_eq_true rfl
theorem EncodeLength.dumpWrite (team : Nat) : EncodeLength.Statement (.dumpWrite team) := Nat.le_of_ble_eq_true rfl
theorem EncodeLength.contextQuiescence (asid : Nat) : EncodeLength.Statement (.contextQuiescence asid) := Nat.le_of_ble_eq_true rfl
theorem EncodeLength.queueDrainDone (asid qid : Nat) : EncodeLength.Statement (.queueDrainDone asid qid) := Nat.le_of_ble_eq_true rfl
theorem EncodeLength.ctxCreate (arenaMiB : Nat) (cred : List Byte) : EncodeLength.Statement (.ctxCreate arenaMiB cred) := Nat.le_of_ble_eq_true rfl
theorem EncodeLength.ctxArm (asid : Nat) (record : BitVec 1024) (payload : List Byte) : EncodeLength.Statement (.ctxArm asid record payload) := Nat.le_of_ble_eq_true rfl
theorem EncodeLength.ctxActivate (asid : Nat) : EncodeLength.Statement (.ctxActivate asid) := Nat.le_of_ble_eq_true rfl
theorem EncodeLength.ctxSuspend (asid : Nat) : EncodeLength.Statement (.ctxSuspend asid) := Nat.le_of_ble_eq_true rfl
theorem EncodeLength.ctxResume (asid : Nat) : EncodeLength.Statement (.ctxResume asid) := Nat.le_of_ble_eq_true rfl
theorem EncodeLength.ctxDrain (asid : Nat) (cancel : Bool) : EncodeLength.Statement (.ctxDrain asid cancel) := Nat.le_of_ble_eq_true rfl
theorem EncodeLength.ctxQuery (asid : Nat) : EncodeLength.Statement (.ctxQuery asid) := Nat.le_of_ble_eq_true rfl
theorem EncodeLength.dumpRead (asid slot seq : Nat) (sig : List Byte) : EncodeLength.Statement (.dumpRead asid slot seq sig) := Nat.le_of_ble_eq_true rfl
theorem EncodeLength.traceRead (asid core seq : Nat) (sig : List Byte) : EncodeLength.Statement (.traceRead asid core seq sig) := Nat.le_of_ble_eq_true rfl
theorem EncodeLength.qCreate (asid prio c : Nat) : EncodeLength.Statement (.qCreate asid prio c) := Nat.le_of_ble_eq_true rfl
theorem EncodeLength.qActivate (asid qid : Nat) : EncodeLength.Statement (.qActivate asid qid) := Nat.le_of_ble_eq_true rfl
theorem EncodeLength.qPause (asid qid : Nat) : EncodeLength.Statement (.qPause asid qid) := Nat.le_of_ble_eq_true rfl
theorem EncodeLength.qResume (asid qid : Nat) : EncodeLength.Statement (.qResume asid qid) := Nat.le_of_ble_eq_true rfl
theorem EncodeLength.qDrain (asid qid : Nat) (cancel : Bool) : EncodeLength.Statement (.qDrain asid qid cancel) := Nat.le_of_ble_eq_true rfl
theorem EncodeLength.qEnq (asid qid : Nat) (record : BitVec 1024) : EncodeLength.Statement (.qEnq asid qid record) := Nat.le_of_ble_eq_true rfl
theorem EncodeLength.qQuery (asid qid : Nat) : EncodeLength.Statement (.qQuery asid qid) := Nat.le_of_ble_eq_true rfl
theorem EncodeLength.pgMap (asid va n : Nat) (attr : BitVec 64) (loc : Locator) : EncodeLength.Statement (.pgMap asid va n attr loc) := Nat.le_of_ble_eq_true rfl
theorem EncodeLength.pgUnmap (asid va n : Nat) : EncodeLength.Statement (.pgUnmap asid va n) := Nat.le_of_ble_eq_true rfl
theorem EncodeLength.pgProtect (asid va n : Nat) (r w x : Bool) : EncodeLength.Statement (.pgProtect asid va n r w x) := Nat.le_of_ble_eq_true rfl
theorem EncodeLength.pgMigrate (asid va stack : Nat) : EncodeLength.Statement (.pgMigrate asid va stack) := Nat.le_of_ble_eq_true rfl
theorem EncodeLength.pgSethash (asid va n mset : Nat) : EncodeLength.Statement (.pgSethash asid va n mset) := Nat.le_of_ble_eq_true rfl
theorem EncodeLength.pgEvict (asid va n : Nat) : EncodeLength.Statement (.pgEvict asid va n) := Nat.le_of_ble_eq_true rfl
theorem EncodeLength.pgPromote (asid va n : Nat) : EncodeLength.Statement (.pgPromote asid va n) := Nat.le_of_ble_eq_true rfl
theorem EncodeLength.pgQuery (asid va : Nat) : EncodeLength.Statement (.pgQuery asid va) := Nat.le_of_ble_eq_true rfl
theorem EncodeLength.shAttach (asid shared base size : Nat) : EncodeLength.Statement (.shAttach asid shared base size) := Nat.le_of_ble_eq_true rfl
theorem EncodeLength.pchQuery (asid stack : Nat) (clear : Bool) : EncodeLength.Statement (.pchQuery asid stack clear) := Nat.le_of_ble_eq_true rfl
theorem EncodeLength.urXlate (asid va n : Nat) (w pull : Bool) : EncodeLength.Statement (.urXlate asid va n w pull) := Nat.le_of_ble_eq_true rfl
theorem EncodeLength.urReturn (asid va n : Nat) : EncodeLength.Statement (.urReturn asid va n) := Nat.le_of_ble_eq_true rfl
theorem EncodeLength.poolDefine (asid : Nat) (defn : BitVec 256) : EncodeLength.Statement (.poolDefine asid defn) := Nat.le_of_ble_eq_true rfl
theorem EncodeLength.dbgAttach (asid : Nat) : EncodeLength.Statement (.dbgAttach asid) := Nat.le_of_ble_eq_true rfl
theorem EncodeLength.dbgDetach (asid : Nat) : EncodeLength.Statement (.dbgDetach asid) := Nat.le_of_ble_eq_true rfl
theorem EncodeLength.dbgHold (asid ktag team : Nat) (mask : BitVec 64) : EncodeLength.Statement (.dbgHold asid ktag team mask) := Nat.le_of_ble_eq_true rfl
theorem EncodeLength.dbgRelease (asid ktag team : Nat) (mask : BitVec 64) : EncodeLength.Statement (.dbgRelease asid ktag team mask) := Nat.le_of_ble_eq_true rfl
theorem EncodeLength.dbgSnap (asid ktag team : Nat) : EncodeLength.Statement (.dbgSnap asid ktag team) := Nat.le_of_ble_eq_true rfl
theorem EncodeLength.dbgWrite (asid ktag team grp kind reg : Nat) (lanes : LaneMask) (value : DWord) : EncodeLength.Statement (.dbgWrite asid ktag team grp kind reg lanes value) := Nat.le_of_ble_eq_true rfl
theorem EncodeLength.lkConfig (port timeout : Nat) (tmaster : Bool) : EncodeLength.Statement (.lkConfig port timeout tmaster) := Nat.le_of_ble_eq_true rfl
theorem EncodeLength.lkEnable (port : Nat) : EncodeLength.Statement (.lkEnable port) := Nat.le_of_ble_eq_true rfl
theorem EncodeLength.lkDisable (port : Nat) : EncodeLength.Statement (.lkDisable port) := Nat.le_of_ble_eq_true rfl
theorem EncodeLength.lkReset (port : Nat) : EncodeLength.Statement (.lkReset port) := Nat.le_of_ble_eq_true rfl
theorem EncodeLength.lkQuery (port : Nat) : EncodeLength.Statement (.lkQuery port) := Nat.le_of_ble_eq_true rfl
theorem EncodeLength.trustAdd (hash : List Byte) : EncodeLength.Statement (.trustAdd hash) := Nat.le_of_ble_eq_true rfl
theorem EncodeLength.expCreate (asid base size : Nat) (r w a : Bool) (peer : List Byte) : EncodeLength.Statement (.expCreate asid base size r w a peer) := Nat.le_of_ble_eq_true rfl
theorem EncodeLength.expDestroy (asid window : Nat) : EncodeLength.Statement (.expDestroy asid window) := Nat.le_of_ble_eq_true rfl
theorem EncodeLength.devInfo : EncodeLength.Statement (.devInfo) := Nat.le_of_ble_eq_true rfl
theorem EncodeLength.devAttest (nonce : List Byte) : EncodeLength.Statement (.devAttest nonce) := Nat.le_of_ble_eq_true rfl
theorem EncodeLength.sensorRead : EncodeLength.Statement (.sensorRead) := Nat.le_of_ble_eq_true rfl
theorem EncodeLength.islandSet (island point : Nat) : EncodeLength.Statement (.islandSet island point) := Nat.le_of_ble_eq_true rfl
theorem EncodeLength.pwrLimit (watts : Nat) : EncodeLength.Statement (.pwrLimit watts) := Nat.le_of_ble_eq_true rfl
theorem EncodeLength.xferIn (asid va : Nat) (data : List Byte) : EncodeLength.Statement (.xferIn asid va data) := Nat.le_of_ble_eq_true rfl
theorem EncodeLength.xferOut (asid va bytes : Nat) : EncodeLength.Statement (.xferOut asid va bytes) := Nat.le_of_ble_eq_true rfl
theorem EncodeLength.fwUpdate (image : List Byte) : EncodeLength.Statement (.fwUpdate image) := Nat.le_of_ble_eq_true rfl
theorem EncodeLength.rspConsWrite (value : Word) : EncodeLength.Statement (.rspConsWrite value) := Nat.le_of_ble_eq_true rfl
theorem EncodeLength.registerWrite (offset : Nat) (value : Word) : EncodeLength.Statement (.registerWrite offset value) := Nat.le_of_ble_eq_true rfl
theorem EncodeLength.packageReset : EncodeLength.Statement (.packageReset) := Nat.le_of_ble_eq_true rfl
theorem EncodeLength.hbmTrainingDone : EncodeLength.Statement (.hbmTrainingDone) := Nat.le_of_ble_eq_true rfl
theorem EncodeLength.islandStop (island : Nat) : EncodeLength.Statement (.islandStop island) := Nat.le_of_ble_eq_true rfl
theorem EncodeLength.islandResume (island : Nat) : EncodeLength.Statement (.islandResume island) := Nat.le_of_ble_eq_true rfl
theorem EncodeLength.sensorSample (block : Sensors) : EncodeLength.Statement (.sensorSample block) := Nat.le_of_ble_eq_true rfl
theorem EncodeLength.powerLimitStep : EncodeLength.Statement (.powerLimitStep) := Nat.le_of_ble_eq_true rfl
theorem EncodeLength.setPointRestore (island : Nat) : EncodeLength.Statement (.setPointRestore island) := Nat.le_of_ble_eq_true rfl
theorem EncodeLength.unitFailure (kind : UnitKind) (id : Nat) : EncodeLength.Statement (.unitFailure kind id) := Nat.le_of_ble_eq_true rfl
theorem EncodeLength.traceEpoch (core : Nat) : EncodeLength.Statement (.traceEpoch core) := Nat.le_of_ble_eq_true rfl
theorem EncodeLength.linkTrainingEnd (port lanes : Nat) (peerTmaster : Bool) : EncodeLength.Statement (.linkTrainingEnd port lanes peerTmaster) := Nat.le_of_ble_eq_true rfl
theorem EncodeLength.attestationAnswer (port : Nat) (key report sig : List Byte) : EncodeLength.Statement (.attestationAnswer port key report sig) := Nat.le_of_ble_eq_true rfl
theorem EncodeLength.attestationTimeout (port : Nat) : EncodeLength.Statement (.attestationTimeout port) := Nat.le_of_ble_eq_true rfl
theorem EncodeLength.laneLoss (port : Nat) : EncodeLength.Statement (.laneLoss port) := Nat.le_of_ble_eq_true rfl
theorem EncodeLength.laneRetrain (port : Nat) : EncodeLength.Statement (.laneRetrain port) := Nat.le_of_ble_eq_true rfl
theorem EncodeLength.linkDrainDone (port : Nat) : EncodeLength.Statement (.linkDrainDone port) := Nat.le_of_ble_eq_true rfl
theorem EncodeLength.inboundRequest (port tag window offset : Nat) (peer : List Byte) (kind : ReqKind) (data : List Byte) : EncodeLength.Statement (.inboundRequest port tag window offset peer kind data) := Nat.le_of_ble_eq_true rfl
theorem EncodeLength.remoteAnswer (port tag : Nat) (answer : Answer) : EncodeLength.Statement (.remoteAnswer port tag answer) := Nat.le_of_ble_eq_true rfl
theorem EncodeLength.remoteTimeoutExpiry (port tag : Nat) : EncodeLength.Statement (.remoteTimeoutExpiry port tag) := Nat.le_of_ble_eq_true rfl
theorem EncodeLength.cancelArrival (port tag : Nat) : EncodeLength.Statement (.cancelArrival port tag) := Nat.le_of_ble_eq_true rfl
theorem EncodeLength.timeAlignSend (port : Nat) : EncodeLength.Statement (.timeAlignSend port) := Nat.le_of_ble_eq_true rfl
theorem EncodeLength.timeAlignMessage (port gts delay : Nat) : EncodeLength.Statement (.timeAlignMessage port gts delay) := Nat.le_of_ble_eq_true rfl
theorem EncodeLength.remoteBudgetAccrued (op : Nat) : EncodeLength.Statement (.remoteBudgetAccrued op) := Nat.le_of_ble_eq_true rfl
theorem EncodeLength.spillWriteDone (g slot : Nat) : EncodeLength.Statement (.spillWriteDone g slot) := Nat.le_of_ble_eq_true rfl
theorem EncodeLength.windowCopyInDone (team : Nat) : EncodeLength.Statement (.windowCopyInDone team) := Nat.le_of_ble_eq_true rfl

end Sys2Proof.Laws
end

