-- ==== Sys2Proof/Laws/Tables.lean ====
section
/-!
SUPPORT. Laws of the tables keyed by number, of sparse tables, and of memory: reading after a write, and that every
memory operation keeps the canonical form.
-/
namespace Sys2Proof.Machine

/-! ### Tables -/

@[simp] theorem dget_nil {α : Type} (n : Nat) : dget ([] : Dict α) n = none := rfl

theorem dget_cons {α : Type} (k : Nat) (v : α) (t : Dict α) (n : Nat) :
    dget ((k, v) :: t) n = if k = n then some v else dget t n := rfl

theorem dget_dset {α : Type} (m : Dict α) (n k : Nat) (v : α) :
    dget (dset m n v) k = if n = k then some v else dget m k := by
  induction m with
  | nil => rfl
  | cons e t ih =>
    obtain ⟨a, w⟩ := e
    simp only [dset]
    split
    · simp [dget_cons]
    · split
      · subst_vars; simp only [dget_cons]; split <;> rfl
      · rw [dget_cons, ih, dget_cons]
        by_cases h1 : a = k <;> by_cases h2 : n = k <;> simp_all

@[simp] theorem dget_dset_same {α : Type} (m : Dict α) (n : Nat) (v : α) : dget (dset m n v) n = some v := by
  simp [dget_dset]

theorem dget_dset_other {α : Type} (m : Dict α) {n k : Nat} (v : α) (h : n ≠ k) : dget (dset m n v) k = dget m k := by
  simp [dget_dset, h]

theorem dget_ddel {α : Type} (m : Dict α) (n k : Nat) : dget (ddel m n) k = if n = k then none else dget m k := by
  induction m with
  | nil => simp [ddel]
  | cons e t ih =>
    obtain ⟨a, w⟩ := e
    simp only [ddel] at ih
    simp only [ddel, List.filter_cons, dget_cons, bne_iff_ne, ne_eq]
    by_cases h : a = n
    · subst h; simp only [not_true_eq_false, if_false, ih]
      by_cases h2 : a = k <;> simp [h2]
    · simp only [h, not_false_eq_true, if_true, dget_cons, ih]
      by_cases h1 : a = k <;> by_cases h2 : n = k <;> simp_all

@[simp] theorem dget_ddel_same {α : Type} (m : Dict α) (n : Nat) : dget (ddel m n) n = none := by simp [dget_ddel]

theorem dget_dmod {α : Type} (m : Dict α) (n k : Nat) (f : α → α) :
    dget (dmod m n f) k = if n = k then (dget m n).map f else dget m k := by
  unfold dmod
  split
  · rename_i v h; rw [dget_dset, h]; rfl
  · rename_i h; rw [h]; split
    · subst_vars; simp [h]
    · rfl

@[simp] theorem dget_dmod_same {α : Type} (m : Dict α) (n : Nat) (f : α → α) :
    dget (dmod m n f) n = (dget m n).map f := by simp [dget_dmod]

/-- A map that keeps keys commutes with reading. -/
theorem dget_map {α β : Type} (m : Dict α) (f : Nat × α → Nat × β) (h : ∀ e, (f e).1 = e.1) (n : Nat) :
    dget (m.map f) n = (dget m n).map fun v => (f (n, v)).2 := by
  induction m with
  | nil => rfl
  | cons e t ih =>
    obtain ⟨a, w⟩ := e
    have h1 := h (a, w)
    rw [List.map_cons]
    cases hf : f (a, w) with
    | mk a' w' =>
      rw [hf] at h1; simp only at h1; subst h1
      simp only [dget_cons]
      by_cases h2 : a' = n
      · subst h2; simp [hf]
      · simp [h2, ih]

theorem dget_append {α : Type} (m t : Dict α) (n : Nat) : dget (m ++ t) n = (dget m n).or (dget t n) := by
  induction m with
  | nil => simp
  | cons e m ih => obtain ⟨a, w⟩ := e; simp only [List.cons_append, dget_cons]; split <;> simp_all

/-! ### Sparse tables -/

theorem sget_eq {α : Type} (d : α) (m : Sparse α) (n : Nat) : sget d m n = (dget m n).getD d := rfl

theorem sget_sset {α : Type} [DecidableEq α] (d : α) (m : Sparse α) (n k : Nat) (v : α) :
    sget d (sset d m n v) k = if n = k then v else sget d m k := by
  unfold sset sget dgetD
  split
  · subst_vars; rw [dget_ddel]; split <;> simp
  · rw [dget_dset]; split <;> simp

theorem sparseWf_tail {α : Type} [DecidableEq α] {d : α} {e : Nat × α} {t : Sparse α} (h : sparseWf d (e :: t) = true) :
    sparseWf d t = true := by
  obtain ⟨k, v⟩ := e
  cases t with
  | nil => rfl
  | cons e' t => obtain ⟨k', v'⟩ := e'; simp [sparseWf] at h; exact h.2

/-- The keys that follow the first are above it. -/
theorem sparseWf_head {α : Type} [DecidableEq α] {d : α} {k : Nat} {v : α} {t : Sparse α}
    (h : sparseWf d ((k, v) :: t) = true) : v ≠ d ∧ ∀ e ∈ t, k < e.1 := by
  induction t generalizing k v with
  | nil => simpa [sparseWf] using h
  | cons e t ih =>
    obtain ⟨k', v'⟩ := e
    simp only [sparseWf, Bool.and_eq_true, decide_eq_true_eq] at h
    refine ⟨h.1.2, ?_⟩
    intro e he
    rcases List.mem_cons.mp he with rfl | he
    · exact h.1.1
    · exact Nat.lt_trans h.1.1 ((ih h.2).2 e he)

theorem sparseWf_cons {α : Type} [DecidableEq α] {d : α} {k : Nat} {v : α} {t : Sparse α}
    (hv : v ≠ d) (hk : ∀ e ∈ t, k < e.1) (ht : sparseWf d t = true) : sparseWf d ((k, v) :: t) = true := by
  cases t with
  | nil => simpa [sparseWf] using hv
  | cons e t => obtain ⟨k', v'⟩ := e; simp only [sparseWf, Bool.and_eq_true, decide_eq_true_eq]; exact ⟨⟨hk (k', v') (by simp), hv⟩, ht⟩

theorem sparseWf_filter {α : Type} [DecidableEq α] {d : α} {m : Sparse α} (p : Nat × α → Bool) (h : sparseWf d m = true) :
    sparseWf d (m.filter p) = true := by
  induction m with
  | nil => rfl
  | cons e t ih =>
    obtain ⟨k, v⟩ := e
    have hh := sparseWf_head h
    have ht := ih (sparseWf_tail h)
    rw [List.filter_cons]
    split
    · exact sparseWf_cons hh.1 (fun e he => hh.2 e (List.mem_filter.mp he).1) ht
    · exact ht

theorem dset_mem {α : Type} {m : Dict α} {n : Nat} {v : α} {e : Nat × α} (h : e ∈ dset m n v) : e = (n, v) ∨ e ∈ m := by
  induction m with
  | nil => simpa [dset] using h
  | cons x t ih =>
    obtain ⟨k, w⟩ := x
    simp only [dset] at h
    split at h
    · simpa using h
    · split at h
      · rcases List.mem_cons.mp h with h | h
        · exact .inl h
        · exact .inr (List.mem_cons_of_mem _ h)
      · rcases List.mem_cons.mp h with h | h
        · exact .inr (by simp [h])
        · rcases ih h with h | h
          · exact .inl h
          · exact .inr (List.mem_cons_of_mem _ h)

theorem sparseWf_dset {α : Type} [DecidableEq α] {d : α} {m : Sparse α} {n : Nat} {v : α} (hv : v ≠ d)
    (h : sparseWf d m = true) : sparseWf d (dset m n v) = true := by
  induction m with
  | nil => simpa [dset, sparseWf] using hv
  | cons x t ih =>
    obtain ⟨k, w⟩ := x
    have hh := sparseWf_head h
    have ht := sparseWf_tail h
    simp only [dset]
    split
    · rename_i hlt
      refine sparseWf_cons hv ?_ h
      intro e he
      rcases List.mem_cons.mp he with rfl | he
      · exact hlt
      · exact Nat.lt_trans hlt (hh.2 e he)
    · split
      · subst_vars; exact sparseWf_cons hv hh.2 ht
      · rename_i h1 h2
        refine sparseWf_cons hh.1 ?_ (ih ht)
        intro e he
        rcases dset_mem he with rfl | he
        · simp only; omega
        · exact hh.2 e he

theorem sparseWf_sset {α : Type} [DecidableEq α] {d : α} {m : Sparse α} (n : Nat) (v : α)
    (h : sparseWf d m = true) : sparseWf d (sset d m n v) = true := by
  unfold sset
  split
  · exact sparseWf_filter _ h
  · rename_i hv; exact sparseWf_dset hv h

/-! ### Memory -/

theorem Memory.read_write (m : Memory) (a b : Nat) (x : Byte) :
    (m.write a x).read b = if a = b then x else m.read b := sget_sset 0 m a b x

theorem Memory.wf_write {m : Memory} (a : Nat) (x : Byte) (h : m.wf) : (m.write a x).wf := sparseWf_sset a x h

theorem Memory.wf_filter {m : Memory} (p : Host.Cell → Bool) (h : m.wf) : Memory.wf (m.filter p) :=
  sparseWf_filter p h

theorem Memory.wf_zero {m : Memory} (a n : Nat) (h : m.wf) : (m.zero a n).wf := sparseWf_filter _ h

theorem Memory.wf_writeN {m : Memory} (a : Nat) (bs : List Byte) (h : m.wf) : (m.writeN a bs).wf := by
  induction bs generalizing m a with
  | nil => exact h
  | cons b bs ih => exact ih (a + 1) (m.wf_write a b h)

/-- What a write of several bytes does: those bytes read as written, every other one as before. -/
theorem Memory.read_writeN (m : Memory) (a : Nat) (bs : List Byte) (x : Nat) :
    (m.writeN a bs).read x = if a ≤ x ∧ x < a + bs.length then bs.getD (x - a) 0 else m.read x := by
  induction bs generalizing m a with
  | nil => rw [if_neg (by simp)]; rfl
  | cons b bs ih =>
    rw [Memory.writeN, ih, Memory.read_write]
    by_cases h1 : a = x
    · subst h1; rw [if_neg (by omega), if_pos rfl, if_pos (by simp)]; simp
    · by_cases h2 : a + 1 ≤ x ∧ x < a + 1 + bs.length
      · rw [if_pos h2, if_pos (by simp; omega)]
        obtain ⟨i, hi⟩ : ∃ i, x - a = i + 1 := ⟨x - a - 1, by omega⟩
        rw [hi, List.getD_cons_succ]; congr 1; omega
      · rw [if_neg h2, if_neg h1, if_neg (by simp; omega)]

/-- What zeroing a range does. -/
theorem Memory.read_zero (m : Memory) (a n x : Nat) :
    (m.zero a n).read x = if a ≤ x ∧ x < a + n then 0 else m.read x := by
  unfold Memory.zero Memory.read sget dgetD
  induction m with
  | nil => simp
  | cons e t ih =>
    obtain ⟨k, v⟩ := e
    rw [List.filter_cons]
    by_cases hk : k < a ∨ a + n ≤ k
    · rw [if_pos (by simpa using hk), dget_cons, dget_cons]
      by_cases hx : k = x
      · subst hx; simp only [if_true]; rw [if_neg (by omega)]
      · simpa [hx] using ih
    · rw [if_neg (by simpa using hk), ih, dget_cons]
      by_cases hx : k = x
      · subst hx; rw [if_pos (by omega), if_pos (by omega)]
      · simp [hx]

end Sys2Proof.Machine
end

