-- ==== Sys2Proof/Laws/Registers.lean ====
section
/-!
SUPPORT. Laws of lanes and registers, and one lemma for each shape in which a register-only instruction writes its result.
-/
namespace Sys2Proof.Machine

/-! ### Lanes -/

theorem mem_lanesOf {m : LaneMask} {l : Nat} : l ∈ lanesOf m ↔ m.getLsbD l = true := by
  simp only [lanesOf, List.mem_filter, List.mem_range]
  constructor
  · exact fun h => h.2
  · exact fun h => ⟨BitVec.lt_of_getLsbD h, h⟩

theorem getLsbD_maskOf_foldl (ls : List Nat) (m : LaneMask) (l : Nat) (hl : l < 32) :
    (ls.foldl (fun m l => m ||| (1#32 <<< l)) m).getLsbD l = (m.getLsbD l || decide (l ∈ ls)) := by
  induction ls generalizing m with
  | nil => simp
  | cons a t ih =>
    rw [List.foldl_cons, ih]
    have : (m ||| 1#32 <<< a).getLsbD l = (m.getLsbD l || decide (l = a)) := by
      rw [BitVec.getLsbD_or, BitVec.getLsbD_shiftLeft]
      by_cases h : l = a
      · subst h; simp [hl]
      · by_cases h2 : l < a
        · simp [h, h2]
        · have h3 : l - a ≠ 0 := by omega
          simp [h, hl, h3]
    rw [this]; simp [Bool.or_assoc]

theorem getLsbD_maskOf (ls : List Nat) (l : Nat) : (maskOf ls).getLsbD l = decide (l < 32 ∧ l ∈ ls) := by
  by_cases hl : l < 32
  · rw [maskOf, getLsbD_maskOf_foldl ls 0 l hl]; simp [hl]
  · rw [BitVec.getLsbD_of_ge _ _ (by omega)]; simp [hl]

/-- Bit l of a mask of the lanes for which a test holds (R26). -/
theorem getLsbD_maskWhere (m : LaneMask) (p : Nat → Bool) (l : Nat) :
    (maskWhere m p).getLsbD l = (m.getLsbD l && p l) := by
  unfold maskWhere
  rw [getLsbD_maskOf, Bool.eq_iff_iff]
  simp only [decide_eq_true_eq, List.mem_filter, mem_lanesOf, Bool.and_eq_true]
  exact ⟨fun h => h.2, fun h => ⟨BitVec.lt_of_getLsbD h.1, h⟩⟩

theorem getLsbD_zext (w : Word) (l : Nat) : (zext w).getLsbD l = w.getLsbD l := by
  unfold zext
  rw [BitVec.getLsbD_append]
  by_cases h : l < 32
  · simp [h]
  · simp [h, BitVec.getLsbD_of_ge w l (by omega)]

/-! ### Registers -/

theorem Group.vreg_setV (g : Group) (r l : Nat) (x : Word) (n k : Nat) (hl : l < 32) (hk : k < 32) :
    (g.setV r l x).vreg n k = if n = r ∧ k = l then x else g.vreg n k := by
  unfold Group.vreg Group.setV
  rw [sget_sset]
  by_cases h : n = r ∧ k = l
  · rw [if_pos (by omega), if_pos h]
  · rw [if_neg (by omega), if_neg h]

theorem Group.sreg_setS (g : Group) (n : Nat) (x : DWord) (k : Nat) :
    (g.setS n x).sreg k = if k = n then x else g.sreg k := by
  unfold Group.sreg Group.setS
  rw [sget_sset]; simp [eq_comm]

/-- A write of vector lanes changes the vector registers alone. -/
theorem Group.foldl_setV_eq (f : Group → Nat → Group) (h : ∀ g l, f g l = { g with v := (f g l).v }) (ls : List Nat)
    (g : Group) : ls.foldl f g = { g with v := (ls.foldl f g).v } := by
  induction ls generalizing g with
  | nil => rfl
  | cons a t ih => rw [List.foldl_cons, ih, h]

theorem Group.writeV_eq (g : Group) (r : Nat) (m : LaneMask) (f : Nat → Word) :
    g.writeV r m f = { g with v := (g.writeV r m f).v } :=
  Group.foldl_setV_eq _ (fun _ _ => rfl) _ _

theorem Group.writeV2_eq (g : Group) (r : Nat) (m : LaneMask) (f : Nat → DWord) :
    g.writeV2 r m f = { g with v := (g.writeV2 r m f).v } :=
  Group.foldl_setV_eq _ (fun _ _ => rfl) _ _

theorem Group.vreg_foldl_setV (ls : List Nat) (g : Group) (r : Nat) (f : Nat → Word) (hls : ∀ l ∈ ls, l < 32)
    (n k : Nat) (hk : k < 32) :
    (ls.foldl (fun g l => g.setV r l (f l)) g).vreg n k = if n = r ∧ k ∈ ls then f k else g.vreg n k := by
  induction ls generalizing g with
  | nil => simp
  | cons a t ih =>
    rw [List.foldl_cons, ih _ fun l hl => hls l (List.mem_cons_of_mem _ hl), Group.vreg_setV _ _ _ _ _ _ (hls a (by simp)) hk]
    by_cases h1 : n = r <;> by_cases h2 : k ∈ t <;> by_cases h3 : k = a <;> simp_all

/-- What a vector write does (R27). -/
theorem Group.vreg_writeV (g : Group) (r : Nat) (m : LaneMask) (f : Nat → Word) (n k : Nat) (hk : k < 32) :
    (g.writeV r m f).vreg n k = if n = r ∧ m.getLsbD k = true then f k else g.vreg n k := by
  unfold Group.writeV
  rw [Group.vreg_foldl_setV _ _ _ _ (fun l hl => BitVec.lt_of_getLsbD (mem_lanesOf.mp hl)) _ _ hk]
  simp only [mem_lanesOf]

/-- What a write of pairs does (R25). -/
theorem Group.vreg_writeV2 (g : Group) (r : Nat) (m : LaneMask) (f : Nat → DWord) (n k : Nat) (hk : k < 32) :
    (g.writeV2 r m f).vreg n k =
      if n = r ∧ m.getLsbD k = true then (f k).extractLsb' 0 32
      else if n = r + 1 ∧ m.getLsbD k = true then (f k).extractLsb' 32 32
      else g.vreg n k := by
  unfold Group.writeV2
  suffices H : ∀ (ls : List Nat) (g : Group), (∀ l ∈ ls, l < 32) →
      (ls.foldl (fun g l => (g.setV r l ((f l).extractLsb' 0 32)).setV (r + 1) l ((f l).extractLsb' 32 32)) g).vreg n k =
        if n = r ∧ k ∈ ls then (f k).extractLsb' 0 32 else if n = r + 1 ∧ k ∈ ls then (f k).extractLsb' 32 32
        else g.vreg n k by
    rw [H _ _ fun l hl => BitVec.lt_of_getLsbD (mem_lanesOf.mp hl)]
    simp only [mem_lanesOf]
  intro ls
  induction ls with
  | nil => simp
  | cons a t ih =>
    intro g hls
    have ha := hls a (by simp)
    rw [List.foldl_cons, ih _ fun l hl => hls l (List.mem_cons_of_mem _ hl), Group.vreg_setV _ _ _ _ _ _ ha hk,
      Group.vreg_setV _ _ _ _ _ _ ha hk]
    by_cases h1 : n = r <;> by_cases h2 : k ∈ t <;> by_cases h3 : k = a <;> by_cases h4 : n = r + 1 <;> simp_all

/-! ### Shapes of results -/

theorem onRun_some {s : State} {r : Run} (h : s.running = some r) (k : Run → Out) : onRun s k = k r := by
  unfold onRun; rw [h]

/-- Writing the issuing group back changes nothing else. -/
theorem OnlyGroup.put (s : State) (r : Run) (g : Group) : OnlyGroup s (r.put s g) r.gid g where
  rest := rfl
  here := dget_dset_same _ _ _
  others _ h := dget_dset_other _ _ (Ne.symm h)

theorem VecOut.vec32 (s : State) (r : Run) (d : Reg7) (f : Nat → Word) : VecOut s r d f (r.vec32 s d f) :=
  ⟨_, (r.g.writeV d.toNat r.act f).v, rfl, by rw [← Group.writeV_eq]; exact .put s r _,
    fun n l hl => by rw [← Group.writeV_eq]; exact Group.vreg_writeV _ _ _ _ _ _ hl⟩

theorem PairOut.vec64 (s : State) (r : Run) (d : Reg7) (f : Nat → DWord) : PairOut s r d f (r.vec64 s d f) :=
  ⟨_, (r.g.writeV2 d.toNat r.act f).v, rfl, by rw [← Group.writeV2_eq]; exact .put s r _,
    fun n l hl => by rw [← Group.writeV2_eq]; exact Group.vreg_writeV2 _ _ _ _ _ _ hl⟩

theorem ScalOut.scal (s : State) (r : Run) (d : Reg7) (x : DWord) : ScalOut s r d x (r.scal s d x) :=
  ⟨_, (r.g.setS d.toNat x).s, rfl, OnlyGroup.put s r _, fun _ => Group.sreg_setS _ _ _ _⟩

theorem VecOut.congr {s : State} {r : Run} {d : Reg7} {f f' : Nat → Word} {o : Out} (h : VecOut s r d f o)
    (he : ∀ l, f l = f' l) : VecOut s r d f' o := by rwa [← funext he]

theorem PairOut.congr {s : State} {r : Run} {d : Reg7} {f f' : Nat → DWord} {o : Out} (h : PairOut s r d f o)
    (he : ∀ l, f l = f' l) : PairOut s r d f' o := by rwa [← funext he]

theorem IsMask.maskWhere (r : Run) (p : Nat → Bool) : IsMask r p (zext (maskWhere r.act p)) :=
  fun l => by rw [getLsbD_zext, getLsbD_maskWhere]

end Sys2Proof.Machine
end

