-- ==== Sys2Proof/Laws/State.lean ====
section
/-!
SUPPORT. One law per field of the state and per update: what the update makes of the field it changes, and that it leaves
every other field as it is.
-/
namespace Sys2Proof.Machine

/-! ### setCore -/

@[simp] theorem State.setCore_pk (s : State) (c : Nat) (v : Core) : (s.setCore c v).pk = s.pk := rfl
@[simp] theorem State.setCore_islands (s : State) (c : Nat) (v : Core) : (s.setCore c v).islands = s.islands := rfl
@[simp] theorem State.setCore_cores (s : State) (c : Nat) (v : Core) :
    (s.setCore c v).cores = dset s.cores c v := rfl
@[simp] theorem State.setCore_looms (s : State) (c : Nat) (v : Core) : (s.setCore c v).looms = s.looms := rfl
@[simp] theorem State.setCore_clusters (s : State) (c : Nat) (v : Core) : (s.setCore c v).clusters = s.clusters := rfl
@[simp] theorem State.setCore_slices (s : State) (c : Nat) (v : Core) : (s.setCore c v).slices = s.slices := rfl
@[simp] theorem State.setCore_dists (s : State) (c : Nat) (v : Core) : (s.setCore c v).dists = s.dists := rfl
@[simp] theorem State.setCore_ports (s : State) (c : Nat) (v : Core) : (s.setCore c v).ports = s.ports := rfl
@[simp] theorem State.setCore_mp (s : State) (c : Nat) (v : Core) : (s.setCore c v).mp = s.mp := rfl
@[simp] theorem State.setCore_ctxs (s : State) (c : Nat) (v : Core) : (s.setCore c v).ctxs = s.ctxs := rfl
@[simp] theorem State.setCore_kernels (s : State) (c : Nat) (v : Core) : (s.setCore c v).kernels = s.kernels := rfl
@[simp] theorem State.setCore_teams (s : State) (c : Nat) (v : Core) : (s.setCore c v).teams = s.teams := rfl
@[simp] theorem State.setCore_groups (s : State) (c : Nat) (v : Core) : (s.setCore c v).groups = s.groups := rfl
@[simp] theorem State.setCore_flight (s : State) (c : Nat) (v : Core) : (s.setCore c v).flight = s.flight := rfl
@[simp] theorem State.setCore_mem (s : State) (c : Nat) (v : Core) : (s.setCore c v).mem = s.mem := rfl
@[simp] theorem State.setCore_agenda (s : State) (c : Nat) (v : Core) : (s.setCore c v).agenda = s.agenda := rfl
@[simp] theorem State.setCore_nextId (s : State) (c : Nat) (v : Core) : (s.setCore c v).nextId = s.nextId := rfl
@[simp] theorem State.setCore_freeCtr (s : State) (c : Nat) (v : Core) : (s.setCore c v).freeCtr = s.freeCtr := rfl
@[simp] theorem State.setCore_tag (s : State) (c : Nat) (v : Core) : (s.setCore c v).tag = s.tag := rfl
@[simp] theorem State.setCore_cur (s : State) (c : Nat) (v : Core) : (s.setCore c v).cur = s.cur := rfl

/-! ### modCore -/

@[simp] theorem State.modCore_pk (s : State) (c : Nat) (f : Core → Core) : (s.modCore c f).pk = s.pk := rfl
@[simp] theorem State.modCore_islands (s : State) (c : Nat) (f : Core → Core) : (s.modCore c f).islands = s.islands := rfl
@[simp] theorem State.modCore_cores (s : State) (c : Nat) (f : Core → Core) :
    (s.modCore c f).cores = dset s.cores c (f (s.core c)) := rfl
@[simp] theorem State.modCore_looms (s : State) (c : Nat) (f : Core → Core) : (s.modCore c f).looms = s.looms := rfl
@[simp] theorem State.modCore_clusters (s : State) (c : Nat) (f : Core → Core) : (s.modCore c f).clusters = s.clusters := rfl
@[simp] theorem State.modCore_slices (s : State) (c : Nat) (f : Core → Core) : (s.modCore c f).slices = s.slices := rfl
@[simp] theorem State.modCore_dists (s : State) (c : Nat) (f : Core → Core) : (s.modCore c f).dists = s.dists := rfl
@[simp] theorem State.modCore_ports (s : State) (c : Nat) (f : Core → Core) : (s.modCore c f).ports = s.ports := rfl
@[simp] theorem State.modCore_mp (s : State) (c : Nat) (f : Core → Core) : (s.modCore c f).mp = s.mp := rfl
@[simp] theorem State.modCore_ctxs (s : State) (c : Nat) (f : Core → Core) : (s.modCore c f).ctxs = s.ctxs := rfl
@[simp] theorem State.modCore_kernels (s : State) (c : Nat) (f : Core → Core) : (s.modCore c f).kernels = s.kernels := rfl
@[simp] theorem State.modCore_teams (s : State) (c : Nat) (f : Core → Core) : (s.modCore c f).teams = s.teams := rfl
@[simp] theorem State.modCore_groups (s : State) (c : Nat) (f : Core → Core) : (s.modCore c f).groups = s.groups := rfl
@[simp] theorem State.modCore_flight (s : State) (c : Nat) (f : Core → Core) : (s.modCore c f).flight = s.flight := rfl
@[simp] theorem State.modCore_mem (s : State) (c : Nat) (f : Core → Core) : (s.modCore c f).mem = s.mem := rfl
@[simp] theorem State.modCore_agenda (s : State) (c : Nat) (f : Core → Core) : (s.modCore c f).agenda = s.agenda := rfl
@[simp] theorem State.modCore_nextId (s : State) (c : Nat) (f : Core → Core) : (s.modCore c f).nextId = s.nextId := rfl
@[simp] theorem State.modCore_freeCtr (s : State) (c : Nat) (f : Core → Core) : (s.modCore c f).freeCtr = s.freeCtr := rfl
@[simp] theorem State.modCore_tag (s : State) (c : Nat) (f : Core → Core) : (s.modCore c f).tag = s.tag := rfl
@[simp] theorem State.modCore_cur (s : State) (c : Nat) (f : Core → Core) : (s.modCore c f).cur = s.cur := rfl

/-! ### modCtx -/

@[simp] theorem State.modCtx_pk (s : State) (a : Nat) (f : Ctx → Ctx) : (s.modCtx a f).pk = s.pk := rfl
@[simp] theorem State.modCtx_islands (s : State) (a : Nat) (f : Ctx → Ctx) : (s.modCtx a f).islands = s.islands := rfl
@[simp] theorem State.modCtx_cores (s : State) (a : Nat) (f : Ctx → Ctx) : (s.modCtx a f).cores = s.cores := rfl
@[simp] theorem State.modCtx_looms (s : State) (a : Nat) (f : Ctx → Ctx) : (s.modCtx a f).looms = s.looms := rfl
@[simp] theorem State.modCtx_clusters (s : State) (a : Nat) (f : Ctx → Ctx) : (s.modCtx a f).clusters = s.clusters := rfl
@[simp] theorem State.modCtx_slices (s : State) (a : Nat) (f : Ctx → Ctx) : (s.modCtx a f).slices = s.slices := rfl
@[simp] theorem State.modCtx_dists (s : State) (a : Nat) (f : Ctx → Ctx) : (s.modCtx a f).dists = s.dists := rfl
@[simp] theorem State.modCtx_ports (s : State) (a : Nat) (f : Ctx → Ctx) : (s.modCtx a f).ports = s.ports := rfl
@[simp] theorem State.modCtx_mp (s : State) (a : Nat) (f : Ctx → Ctx) : (s.modCtx a f).mp = s.mp := rfl
@[simp] theorem State.modCtx_ctxs (s : State) (a : Nat) (f : Ctx → Ctx) :
    (s.modCtx a f).ctxs = dmod s.ctxs a f := rfl
@[simp] theorem State.modCtx_kernels (s : State) (a : Nat) (f : Ctx → Ctx) : (s.modCtx a f).kernels = s.kernels := rfl
@[simp] theorem State.modCtx_teams (s : State) (a : Nat) (f : Ctx → Ctx) : (s.modCtx a f).teams = s.teams := rfl
@[simp] theorem State.modCtx_groups (s : State) (a : Nat) (f : Ctx → Ctx) : (s.modCtx a f).groups = s.groups := rfl
@[simp] theorem State.modCtx_flight (s : State) (a : Nat) (f : Ctx → Ctx) : (s.modCtx a f).flight = s.flight := rfl
@[simp] theorem State.modCtx_mem (s : State) (a : Nat) (f : Ctx → Ctx) : (s.modCtx a f).mem = s.mem := rfl
@[simp] theorem State.modCtx_agenda (s : State) (a : Nat) (f : Ctx → Ctx) : (s.modCtx a f).agenda = s.agenda := rfl
@[simp] theorem State.modCtx_nextId (s : State) (a : Nat) (f : Ctx → Ctx) : (s.modCtx a f).nextId = s.nextId := rfl
@[simp] theorem State.modCtx_freeCtr (s : State) (a : Nat) (f : Ctx → Ctx) : (s.modCtx a f).freeCtr = s.freeCtr := rfl
@[simp] theorem State.modCtx_tag (s : State) (a : Nat) (f : Ctx → Ctx) : (s.modCtx a f).tag = s.tag := rfl
@[simp] theorem State.modCtx_cur (s : State) (a : Nat) (f : Ctx → Ctx) : (s.modCtx a f).cur = s.cur := rfl

/-! ### modPage -/

@[simp] theorem State.modPage_pk (s : State) (a b : Nat) (f : Page → Page) : (s.modPage a b f).pk = s.pk := rfl
@[simp] theorem State.modPage_islands (s : State) (a b : Nat) (f : Page → Page) : (s.modPage a b f).islands = s.islands := rfl
@[simp] theorem State.modPage_cores (s : State) (a b : Nat) (f : Page → Page) : (s.modPage a b f).cores = s.cores := rfl
@[simp] theorem State.modPage_looms (s : State) (a b : Nat) (f : Page → Page) : (s.modPage a b f).looms = s.looms := rfl
@[simp] theorem State.modPage_clusters (s : State) (a b : Nat) (f : Page → Page) : (s.modPage a b f).clusters = s.clusters := rfl
@[simp] theorem State.modPage_slices (s : State) (a b : Nat) (f : Page → Page) : (s.modPage a b f).slices = s.slices := rfl
@[simp] theorem State.modPage_dists (s : State) (a b : Nat) (f : Page → Page) : (s.modPage a b f).dists = s.dists := rfl
@[simp] theorem State.modPage_ports (s : State) (a b : Nat) (f : Page → Page) : (s.modPage a b f).ports = s.ports := rfl
@[simp] theorem State.modPage_mp (s : State) (a b : Nat) (f : Page → Page) : (s.modPage a b f).mp = s.mp := rfl
@[simp] theorem State.modPage_ctxs (s : State) (a b : Nat) (f : Page → Page) :
    (s.modPage a b f).ctxs = dmod s.ctxs a fun c => { c with pages := dmod c.pages b f } := rfl
@[simp] theorem State.modPage_kernels (s : State) (a b : Nat) (f : Page → Page) : (s.modPage a b f).kernels = s.kernels := rfl
@[simp] theorem State.modPage_teams (s : State) (a b : Nat) (f : Page → Page) : (s.modPage a b f).teams = s.teams := rfl
@[simp] theorem State.modPage_groups (s : State) (a b : Nat) (f : Page → Page) : (s.modPage a b f).groups = s.groups := rfl
@[simp] theorem State.modPage_flight (s : State) (a b : Nat) (f : Page → Page) : (s.modPage a b f).flight = s.flight := rfl
@[simp] theorem State.modPage_mem (s : State) (a b : Nat) (f : Page → Page) : (s.modPage a b f).mem = s.mem := rfl
@[simp] theorem State.modPage_agenda (s : State) (a b : Nat) (f : Page → Page) : (s.modPage a b f).agenda = s.agenda := rfl
@[simp] theorem State.modPage_nextId (s : State) (a b : Nat) (f : Page → Page) : (s.modPage a b f).nextId = s.nextId := rfl
@[simp] theorem State.modPage_freeCtr (s : State) (a b : Nat) (f : Page → Page) : (s.modPage a b f).freeCtr = s.freeCtr := rfl
@[simp] theorem State.modPage_tag (s : State) (a b : Nat) (f : Page → Page) : (s.modPage a b f).tag = s.tag := rfl
@[simp] theorem State.modPage_cur (s : State) (a b : Nat) (f : Page → Page) : (s.modPage a b f).cur = s.cur := rfl

/-! ### modKernel -/

@[simp] theorem State.modKernel_pk (s : State) (k : Nat) (f : Kernel → Kernel) : (s.modKernel k f).pk = s.pk := rfl
@[simp] theorem State.modKernel_islands (s : State) (k : Nat) (f : Kernel → Kernel) : (s.modKernel k f).islands = s.islands := rfl
@[simp] theorem State.modKernel_cores (s : State) (k : Nat) (f : Kernel → Kernel) : (s.modKernel k f).cores = s.cores := rfl
@[simp] theorem State.modKernel_looms (s : State) (k : Nat) (f : Kernel → Kernel) : (s.modKernel k f).looms = s.looms := rfl
@[simp] theorem State.modKernel_clusters (s : State) (k : Nat) (f : Kernel → Kernel) : (s.modKernel k f).clusters = s.clusters := rfl
@[simp] theorem State.modKernel_slices (s : State) (k : Nat) (f : Kernel → Kernel) : (s.modKernel k f).slices = s.slices := rfl
@[simp] theorem State.modKernel_dists (s : State) (k : Nat) (f : Kernel → Kernel) : (s.modKernel k f).dists = s.dists := rfl
@[simp] theorem State.modKernel_ports (s : State) (k : Nat) (f : Kernel → Kernel) : (s.modKernel k f).ports = s.ports := rfl
@[simp] theorem State.modKernel_mp (s : State) (k : Nat) (f : Kernel → Kernel) : (s.modKernel k f).mp = s.mp := rfl
@[simp] theorem State.modKernel_ctxs (s : State) (k : Nat) (f : Kernel → Kernel) : (s.modKernel k f).ctxs = s.ctxs := rfl
@[simp] theorem State.modKernel_kernels (s : State) (k : Nat) (f : Kernel → Kernel) :
    (s.modKernel k f).kernels = dmod s.kernels k f := rfl
@[simp] theorem State.modKernel_teams (s : State) (k : Nat) (f : Kernel → Kernel) : (s.modKernel k f).teams = s.teams := rfl
@[simp] theorem State.modKernel_groups (s : State) (k : Nat) (f : Kernel → Kernel) : (s.modKernel k f).groups = s.groups := rfl
@[simp] theorem State.modKernel_flight (s : State) (k : Nat) (f : Kernel → Kernel) : (s.modKernel k f).flight = s.flight := rfl
@[simp] theorem State.modKernel_mem (s : State) (k : Nat) (f : Kernel → Kernel) : (s.modKernel k f).mem = s.mem := rfl
@[simp] theorem State.modKernel_agenda (s : State) (k : Nat) (f : Kernel → Kernel) : (s.modKernel k f).agenda = s.agenda := rfl
@[simp] theorem State.modKernel_nextId (s : State) (k : Nat) (f : Kernel → Kernel) : (s.modKernel k f).nextId = s.nextId := rfl
@[simp] theorem State.modKernel_freeCtr (s : State) (k : Nat) (f : Kernel → Kernel) : (s.modKernel k f).freeCtr = s.freeCtr := rfl
@[simp] theorem State.modKernel_tag (s : State) (k : Nat) (f : Kernel → Kernel) : (s.modKernel k f).tag = s.tag := rfl
@[simp] theorem State.modKernel_cur (s : State) (k : Nat) (f : Kernel → Kernel) : (s.modKernel k f).cur = s.cur := rfl

/-! ### modTeam -/

@[simp] theorem State.modTeam_pk (s : State) (t : Nat) (f : Team → Team) : (s.modTeam t f).pk = s.pk := rfl
@[simp] theorem State.modTeam_islands (s : State) (t : Nat) (f : Team → Team) : (s.modTeam t f).islands = s.islands := rfl
@[simp] theorem State.modTeam_cores (s : State) (t : Nat) (f : Team → Team) : (s.modTeam t f).cores = s.cores := rfl
@[simp] theorem State.modTeam_looms (s : State) (t : Nat) (f : Team → Team) : (s.modTeam t f).looms = s.looms := rfl
@[simp] theorem State.modTeam_clusters (s : State) (t : Nat) (f : Team → Team) : (s.modTeam t f).clusters = s.clusters := rfl
@[simp] theorem State.modTeam_slices (s : State) (t : Nat) (f : Team → Team) : (s.modTeam t f).slices = s.slices := rfl
@[simp] theorem State.modTeam_dists (s : State) (t : Nat) (f : Team → Team) : (s.modTeam t f).dists = s.dists := rfl
@[simp] theorem State.modTeam_ports (s : State) (t : Nat) (f : Team → Team) : (s.modTeam t f).ports = s.ports := rfl
@[simp] theorem State.modTeam_mp (s : State) (t : Nat) (f : Team → Team) : (s.modTeam t f).mp = s.mp := rfl
@[simp] theorem State.modTeam_ctxs (s : State) (t : Nat) (f : Team → Team) : (s.modTeam t f).ctxs = s.ctxs := rfl
@[simp] theorem State.modTeam_kernels (s : State) (t : Nat) (f : Team → Team) : (s.modTeam t f).kernels = s.kernels := rfl
@[simp] theorem State.modTeam_teams (s : State) (t : Nat) (f : Team → Team) :
    (s.modTeam t f).teams = dmod s.teams t f := rfl
@[simp] theorem State.modTeam_groups (s : State) (t : Nat) (f : Team → Team) : (s.modTeam t f).groups = s.groups := rfl
@[simp] theorem State.modTeam_flight (s : State) (t : Nat) (f : Team → Team) : (s.modTeam t f).flight = s.flight := rfl
@[simp] theorem State.modTeam_mem (s : State) (t : Nat) (f : Team → Team) : (s.modTeam t f).mem = s.mem := rfl
@[simp] theorem State.modTeam_agenda (s : State) (t : Nat) (f : Team → Team) : (s.modTeam t f).agenda = s.agenda := rfl
@[simp] theorem State.modTeam_nextId (s : State) (t : Nat) (f : Team → Team) : (s.modTeam t f).nextId = s.nextId := rfl
@[simp] theorem State.modTeam_freeCtr (s : State) (t : Nat) (f : Team → Team) : (s.modTeam t f).freeCtr = s.freeCtr := rfl
@[simp] theorem State.modTeam_tag (s : State) (t : Nat) (f : Team → Team) : (s.modTeam t f).tag = s.tag := rfl
@[simp] theorem State.modTeam_cur (s : State) (t : Nat) (f : Team → Team) : (s.modTeam t f).cur = s.cur := rfl

/-! ### setGroup -/

@[simp] theorem State.setGroup_pk (s : State) (g : Nat) (v : Group) : (s.setGroup g v).pk = s.pk := rfl
@[simp] theorem State.setGroup_islands (s : State) (g : Nat) (v : Group) : (s.setGroup g v).islands = s.islands := rfl
@[simp] theorem State.setGroup_cores (s : State) (g : Nat) (v : Group) : (s.setGroup g v).cores = s.cores := rfl
@[simp] theorem State.setGroup_looms (s : State) (g : Nat) (v : Group) : (s.setGroup g v).looms = s.looms := rfl
@[simp] theorem State.setGroup_clusters (s : State) (g : Nat) (v : Group) : (s.setGroup g v).clusters = s.clusters := rfl
@[simp] theorem State.setGroup_slices (s : State) (g : Nat) (v : Group) : (s.setGroup g v).slices = s.slices := rfl
@[simp] theorem State.setGroup_dists (s : State) (g : Nat) (v : Group) : (s.setGroup g v).dists = s.dists := rfl
@[simp] theorem State.setGroup_ports (s : State) (g : Nat) (v : Group) : (s.setGroup g v).ports = s.ports := rfl
@[simp] theorem State.setGroup_mp (s : State) (g : Nat) (v : Group) : (s.setGroup g v).mp = s.mp := rfl
@[simp] theorem State.setGroup_ctxs (s : State) (g : Nat) (v : Group) : (s.setGroup g v).ctxs = s.ctxs := rfl
@[simp] theorem State.setGroup_kernels (s : State) (g : Nat) (v : Group) : (s.setGroup g v).kernels = s.kernels := rfl
@[simp] theorem State.setGroup_teams (s : State) (g : Nat) (v : Group) : (s.setGroup g v).teams = s.teams := rfl
@[simp] theorem State.setGroup_groups (s : State) (g : Nat) (v : Group) :
    (s.setGroup g v).groups = dset s.groups g v := rfl
@[simp] theorem State.setGroup_flight (s : State) (g : Nat) (v : Group) : (s.setGroup g v).flight = s.flight := rfl
@[simp] theorem State.setGroup_mem (s : State) (g : Nat) (v : Group) : (s.setGroup g v).mem = s.mem := rfl
@[simp] theorem State.setGroup_agenda (s : State) (g : Nat) (v : Group) : (s.setGroup g v).agenda = s.agenda := rfl
@[simp] theorem State.setGroup_nextId (s : State) (g : Nat) (v : Group) : (s.setGroup g v).nextId = s.nextId := rfl
@[simp] theorem State.setGroup_freeCtr (s : State) (g : Nat) (v : Group) : (s.setGroup g v).freeCtr = s.freeCtr := rfl
@[simp] theorem State.setGroup_tag (s : State) (g : Nat) (v : Group) : (s.setGroup g v).tag = s.tag := rfl
@[simp] theorem State.setGroup_cur (s : State) (g : Nat) (v : Group) : (s.setGroup g v).cur = s.cur := rfl

/-! ### modGroup -/

@[simp] theorem State.modGroup_pk (s : State) (g : Nat) (f : Group → Group) : (s.modGroup g f).pk = s.pk := rfl
@[simp] theorem State.modGroup_islands (s : State) (g : Nat) (f : Group → Group) : (s.modGroup g f).islands = s.islands := rfl
@[simp] theorem State.modGroup_cores (s : State) (g : Nat) (f : Group → Group) : (s.modGroup g f).cores = s.cores := rfl
@[simp] theorem State.modGroup_looms (s : State) (g : Nat) (f : Group → Group) : (s.modGroup g f).looms = s.looms := rfl
@[simp] theorem State.modGroup_clusters (s : State) (g : Nat) (f : Group → Group) : (s.modGroup g f).clusters = s.clusters := rfl
@[simp] theorem State.modGroup_slices (s : State) (g : Nat) (f : Group → Group) : (s.modGroup g f).slices = s.slices := rfl
@[simp] theorem State.modGroup_dists (s : State) (g : Nat) (f : Group → Group) : (s.modGroup g f).dists = s.dists := rfl
@[simp] theorem State.modGroup_ports (s : State) (g : Nat) (f : Group → Group) : (s.modGroup g f).ports = s.ports := rfl
@[simp] theorem State.modGroup_mp (s : State) (g : Nat) (f : Group → Group) : (s.modGroup g f).mp = s.mp := rfl
@[simp] theorem State.modGroup_ctxs (s : State) (g : Nat) (f : Group → Group) : (s.modGroup g f).ctxs = s.ctxs := rfl
@[simp] theorem State.modGroup_kernels (s : State) (g : Nat) (f : Group → Group) : (s.modGroup g f).kernels = s.kernels := rfl
@[simp] theorem State.modGroup_teams (s : State) (g : Nat) (f : Group → Group) : (s.modGroup g f).teams = s.teams := rfl
@[simp] theorem State.modGroup_groups (s : State) (g : Nat) (f : Group → Group) :
    (s.modGroup g f).groups = dmod s.groups g f := rfl
@[simp] theorem State.modGroup_flight (s : State) (g : Nat) (f : Group → Group) : (s.modGroup g f).flight = s.flight := rfl
@[simp] theorem State.modGroup_mem (s : State) (g : Nat) (f : Group → Group) : (s.modGroup g f).mem = s.mem := rfl
@[simp] theorem State.modGroup_agenda (s : State) (g : Nat) (f : Group → Group) : (s.modGroup g f).agenda = s.agenda := rfl
@[simp] theorem State.modGroup_nextId (s : State) (g : Nat) (f : Group → Group) : (s.modGroup g f).nextId = s.nextId := rfl
@[simp] theorem State.modGroup_freeCtr (s : State) (g : Nat) (f : Group → Group) : (s.modGroup g f).freeCtr = s.freeCtr := rfl
@[simp] theorem State.modGroup_tag (s : State) (g : Nat) (f : Group → Group) : (s.modGroup g f).tag = s.tag := rfl
@[simp] theorem State.modGroup_cur (s : State) (g : Nat) (f : Group → Group) : (s.modGroup g f).cur = s.cur := rfl

/-! ### setLoom -/

@[simp] theorem State.setLoom_pk (s : State) (i : Nat) (l : Loom) : (s.setLoom i l).pk = s.pk := rfl
@[simp] theorem State.setLoom_islands (s : State) (i : Nat) (l : Loom) : (s.setLoom i l).islands = s.islands := rfl
@[simp] theorem State.setLoom_cores (s : State) (i : Nat) (l : Loom) : (s.setLoom i l).cores = s.cores := rfl
@[simp] theorem State.setLoom_looms (s : State) (i : Nat) (l : Loom) :
    (s.setLoom i l).looms = dset s.looms i l := rfl
@[simp] theorem State.setLoom_clusters (s : State) (i : Nat) (l : Loom) : (s.setLoom i l).clusters = s.clusters := rfl
@[simp] theorem State.setLoom_slices (s : State) (i : Nat) (l : Loom) : (s.setLoom i l).slices = s.slices := rfl
@[simp] theorem State.setLoom_dists (s : State) (i : Nat) (l : Loom) : (s.setLoom i l).dists = s.dists := rfl
@[simp] theorem State.setLoom_ports (s : State) (i : Nat) (l : Loom) : (s.setLoom i l).ports = s.ports := rfl
@[simp] theorem State.setLoom_mp (s : State) (i : Nat) (l : Loom) : (s.setLoom i l).mp = s.mp := rfl
@[simp] theorem State.setLoom_ctxs (s : State) (i : Nat) (l : Loom) : (s.setLoom i l).ctxs = s.ctxs := rfl
@[simp] theorem State.setLoom_kernels (s : State) (i : Nat) (l : Loom) : (s.setLoom i l).kernels = s.kernels := rfl
@[simp] theorem State.setLoom_teams (s : State) (i : Nat) (l : Loom) : (s.setLoom i l).teams = s.teams := rfl
@[simp] theorem State.setLoom_groups (s : State) (i : Nat) (l : Loom) : (s.setLoom i l).groups = s.groups := rfl
@[simp] theorem State.setLoom_flight (s : State) (i : Nat) (l : Loom) : (s.setLoom i l).flight = s.flight := rfl
@[simp] theorem State.setLoom_mem (s : State) (i : Nat) (l : Loom) : (s.setLoom i l).mem = s.mem := rfl
@[simp] theorem State.setLoom_agenda (s : State) (i : Nat) (l : Loom) : (s.setLoom i l).agenda = s.agenda := rfl
@[simp] theorem State.setLoom_nextId (s : State) (i : Nat) (l : Loom) : (s.setLoom i l).nextId = s.nextId := rfl
@[simp] theorem State.setLoom_freeCtr (s : State) (i : Nat) (l : Loom) : (s.setLoom i l).freeCtr = s.freeCtr := rfl
@[simp] theorem State.setLoom_tag (s : State) (i : Nat) (l : Loom) : (s.setLoom i l).tag = s.tag := rfl
@[simp] theorem State.setLoom_cur (s : State) (i : Nat) (l : Loom) : (s.setLoom i l).cur = s.cur := rfl

/-! ### modIsland -/

@[simp] theorem State.modIsland_pk (s : State) (i : Nat) (f : Island → Island) : (s.modIsland i f).pk = s.pk := rfl
@[simp] theorem State.modIsland_islands (s : State) (i : Nat) (f : Island → Island) :
    (s.modIsland i f).islands = dset s.islands i (f (s.island i)) := rfl
@[simp] theorem State.modIsland_cores (s : State) (i : Nat) (f : Island → Island) : (s.modIsland i f).cores = s.cores := rfl
@[simp] theorem State.modIsland_looms (s : State) (i : Nat) (f : Island → Island) : (s.modIsland i f).looms = s.looms := rfl
@[simp] theorem State.modIsland_clusters (s : State) (i : Nat) (f : Island → Island) : (s.modIsland i f).clusters = s.clusters := rfl
@[simp] theorem State.modIsland_slices (s : State) (i : Nat) (f : Island → Island) : (s.modIsland i f).slices = s.slices := rfl
@[simp] theorem State.modIsland_dists (s : State) (i : Nat) (f : Island → Island) : (s.modIsland i f).dists = s.dists := rfl
@[simp] theorem State.modIsland_ports (s : State) (i : Nat) (f : Island → Island) : (s.modIsland i f).ports = s.ports := rfl
@[simp] theorem State.modIsland_mp (s : State) (i : Nat) (f : Island → Island) : (s.modIsland i f).mp = s.mp := rfl
@[simp] theorem State.modIsland_ctxs (s : State) (i : Nat) (f : Island → Island) : (s.modIsland i f).ctxs = s.ctxs := rfl
@[simp] theorem State.modIsland_kernels (s : State) (i : Nat) (f : Island → Island) : (s.modIsland i f).kernels = s.kernels := rfl
@[simp] theorem State.modIsland_teams (s : State) (i : Nat) (f : Island → Island) : (s.modIsland i f).teams = s.teams := rfl
@[simp] theorem State.modIsland_groups (s : State) (i : Nat) (f : Island → Island) : (s.modIsland i f).groups = s.groups := rfl
@[simp] theorem State.modIsland_flight (s : State) (i : Nat) (f : Island → Island) : (s.modIsland i f).flight = s.flight := rfl
@[simp] theorem State.modIsland_mem (s : State) (i : Nat) (f : Island → Island) : (s.modIsland i f).mem = s.mem := rfl
@[simp] theorem State.modIsland_agenda (s : State) (i : Nat) (f : Island → Island) : (s.modIsland i f).agenda = s.agenda := rfl
@[simp] theorem State.modIsland_nextId (s : State) (i : Nat) (f : Island → Island) : (s.modIsland i f).nextId = s.nextId := rfl
@[simp] theorem State.modIsland_freeCtr (s : State) (i : Nat) (f : Island → Island) : (s.modIsland i f).freeCtr = s.freeCtr := rfl
@[simp] theorem State.modIsland_tag (s : State) (i : Nat) (f : Island → Island) : (s.modIsland i f).tag = s.tag := rfl
@[simp] theorem State.modIsland_cur (s : State) (i : Nat) (f : Island → Island) : (s.modIsland i f).cur = s.cur := rfl

/-! ### modPort -/

@[simp] theorem State.modPort_pk (s : State) (i : Nat) (f : Port → Port) : (s.modPort i f).pk = s.pk := rfl
@[simp] theorem State.modPort_islands (s : State) (i : Nat) (f : Port → Port) : (s.modPort i f).islands = s.islands := rfl
@[simp] theorem State.modPort_cores (s : State) (i : Nat) (f : Port → Port) : (s.modPort i f).cores = s.cores := rfl
@[simp] theorem State.modPort_looms (s : State) (i : Nat) (f : Port → Port) : (s.modPort i f).looms = s.looms := rfl
@[simp] theorem State.modPort_clusters (s : State) (i : Nat) (f : Port → Port) : (s.modPort i f).clusters = s.clusters := rfl
@[simp] theorem State.modPort_slices (s : State) (i : Nat) (f : Port → Port) : (s.modPort i f).slices = s.slices := rfl
@[simp] theorem State.modPort_dists (s : State) (i : Nat) (f : Port → Port) : (s.modPort i f).dists = s.dists := rfl
@[simp] theorem State.modPort_ports (s : State) (i : Nat) (f : Port → Port) :
    (s.modPort i f).ports = dset s.ports i (f (s.port i)) := rfl
@[simp] theorem State.modPort_mp (s : State) (i : Nat) (f : Port → Port) : (s.modPort i f).mp = s.mp := rfl
@[simp] theorem State.modPort_ctxs (s : State) (i : Nat) (f : Port → Port) : (s.modPort i f).ctxs = s.ctxs := rfl
@[simp] theorem State.modPort_kernels (s : State) (i : Nat) (f : Port → Port) : (s.modPort i f).kernels = s.kernels := rfl
@[simp] theorem State.modPort_teams (s : State) (i : Nat) (f : Port → Port) : (s.modPort i f).teams = s.teams := rfl
@[simp] theorem State.modPort_groups (s : State) (i : Nat) (f : Port → Port) : (s.modPort i f).groups = s.groups := rfl
@[simp] theorem State.modPort_flight (s : State) (i : Nat) (f : Port → Port) : (s.modPort i f).flight = s.flight := rfl
@[simp] theorem State.modPort_mem (s : State) (i : Nat) (f : Port → Port) : (s.modPort i f).mem = s.mem := rfl
@[simp] theorem State.modPort_agenda (s : State) (i : Nat) (f : Port → Port) : (s.modPort i f).agenda = s.agenda := rfl
@[simp] theorem State.modPort_nextId (s : State) (i : Nat) (f : Port → Port) : (s.modPort i f).nextId = s.nextId := rfl
@[simp] theorem State.modPort_freeCtr (s : State) (i : Nat) (f : Port → Port) : (s.modPort i f).freeCtr = s.freeCtr := rfl
@[simp] theorem State.modPort_tag (s : State) (i : Nat) (f : Port → Port) : (s.modPort i f).tag = s.tag := rfl
@[simp] theorem State.modPort_cur (s : State) (i : Nat) (f : Port → Port) : (s.modPort i f).cur = s.cur := rfl

/-! ### modUnit -/

@[simp] theorem State.modUnit_pk (s : State) (n i : Nat) (f : Access → Access) : (s.modUnit n i f).pk = s.pk := rfl
@[simp] theorem State.modUnit_islands (s : State) (n i : Nat) (f : Access → Access) : (s.modUnit n i f).islands = s.islands := rfl
@[simp] theorem State.modUnit_cores (s : State) (n i : Nat) (f : Access → Access) : (s.modUnit n i f).cores = s.cores := rfl
@[simp] theorem State.modUnit_looms (s : State) (n i : Nat) (f : Access → Access) : (s.modUnit n i f).looms = s.looms := rfl
@[simp] theorem State.modUnit_clusters (s : State) (n i : Nat) (f : Access → Access) : (s.modUnit n i f).clusters = s.clusters := rfl
@[simp] theorem State.modUnit_slices (s : State) (n i : Nat) (f : Access → Access) : (s.modUnit n i f).slices = s.slices := rfl
@[simp] theorem State.modUnit_dists (s : State) (n i : Nat) (f : Access → Access) : (s.modUnit n i f).dists = s.dists := rfl
@[simp] theorem State.modUnit_ports (s : State) (n i : Nat) (f : Access → Access) : (s.modUnit n i f).ports = s.ports := rfl
@[simp] theorem State.modUnit_mp (s : State) (n i : Nat) (f : Access → Access) : (s.modUnit n i f).mp = s.mp := rfl
@[simp] theorem State.modUnit_ctxs (s : State) (n i : Nat) (f : Access → Access) : (s.modUnit n i f).ctxs = s.ctxs := rfl
@[simp] theorem State.modUnit_kernels (s : State) (n i : Nat) (f : Access → Access) : (s.modUnit n i f).kernels = s.kernels := rfl
@[simp] theorem State.modUnit_teams (s : State) (n i : Nat) (f : Access → Access) : (s.modUnit n i f).teams = s.teams := rfl
@[simp] theorem State.modUnit_groups (s : State) (n i : Nat) (f : Access → Access) : (s.modUnit n i f).groups = s.groups := rfl
@[simp] theorem State.modUnit_flight (s : State) (n i : Nat) (f : Access → Access) :
    (s.modUnit n i f).flight = dmod s.flight n fun o => o.modUnit i f := rfl
@[simp] theorem State.modUnit_mem (s : State) (n i : Nat) (f : Access → Access) : (s.modUnit n i f).mem = s.mem := rfl
@[simp] theorem State.modUnit_agenda (s : State) (n i : Nat) (f : Access → Access) : (s.modUnit n i f).agenda = s.agenda := rfl
@[simp] theorem State.modUnit_nextId (s : State) (n i : Nat) (f : Access → Access) : (s.modUnit n i f).nextId = s.nextId := rfl
@[simp] theorem State.modUnit_freeCtr (s : State) (n i : Nat) (f : Access → Access) : (s.modUnit n i f).freeCtr = s.freeCtr := rfl
@[simp] theorem State.modUnit_tag (s : State) (n i : Nat) (f : Access → Access) : (s.modUnit n i f).tag = s.tag := rfl
@[simp] theorem State.modUnit_cur (s : State) (n i : Nat) (f : Access → Access) : (s.modUnit n i f).cur = s.cur := rfl

/-! ### modXfer -/

@[simp] theorem State.modXfer_pk (s : State) (n : Nat) (f : Xfer → Xfer) : (s.modXfer n f).pk = s.pk := rfl
@[simp] theorem State.modXfer_islands (s : State) (n : Nat) (f : Xfer → Xfer) : (s.modXfer n f).islands = s.islands := rfl
@[simp] theorem State.modXfer_cores (s : State) (n : Nat) (f : Xfer → Xfer) : (s.modXfer n f).cores = s.cores := rfl
@[simp] theorem State.modXfer_looms (s : State) (n : Nat) (f : Xfer → Xfer) : (s.modXfer n f).looms = s.looms := rfl
@[simp] theorem State.modXfer_clusters (s : State) (n : Nat) (f : Xfer → Xfer) : (s.modXfer n f).clusters = s.clusters := rfl
@[simp] theorem State.modXfer_slices (s : State) (n : Nat) (f : Xfer → Xfer) : (s.modXfer n f).slices = s.slices := rfl
@[simp] theorem State.modXfer_dists (s : State) (n : Nat) (f : Xfer → Xfer) : (s.modXfer n f).dists = s.dists := rfl
@[simp] theorem State.modXfer_ports (s : State) (n : Nat) (f : Xfer → Xfer) : (s.modXfer n f).ports = s.ports := rfl
@[simp] theorem State.modXfer_mp (s : State) (n : Nat) (f : Xfer → Xfer) :
    (s.modXfer n f).mp = { s.mp with xfers := s.mp.xfers.map fun x => if x.tag == n then f x else x } := rfl
@[simp] theorem State.modXfer_ctxs (s : State) (n : Nat) (f : Xfer → Xfer) : (s.modXfer n f).ctxs = s.ctxs := rfl
@[simp] theorem State.modXfer_kernels (s : State) (n : Nat) (f : Xfer → Xfer) : (s.modXfer n f).kernels = s.kernels := rfl
@[simp] theorem State.modXfer_teams (s : State) (n : Nat) (f : Xfer → Xfer) : (s.modXfer n f).teams = s.teams := rfl
@[simp] theorem State.modXfer_groups (s : State) (n : Nat) (f : Xfer → Xfer) : (s.modXfer n f).groups = s.groups := rfl
@[simp] theorem State.modXfer_flight (s : State) (n : Nat) (f : Xfer → Xfer) : (s.modXfer n f).flight = s.flight := rfl
@[simp] theorem State.modXfer_mem (s : State) (n : Nat) (f : Xfer → Xfer) : (s.modXfer n f).mem = s.mem := rfl
@[simp] theorem State.modXfer_agenda (s : State) (n : Nat) (f : Xfer → Xfer) : (s.modXfer n f).agenda = s.agenda := rfl
@[simp] theorem State.modXfer_nextId (s : State) (n : Nat) (f : Xfer → Xfer) : (s.modXfer n f).nextId = s.nextId := rfl
@[simp] theorem State.modXfer_freeCtr (s : State) (n : Nat) (f : Xfer → Xfer) : (s.modXfer n f).freeCtr = s.freeCtr := rfl
@[simp] theorem State.modXfer_tag (s : State) (n : Nat) (f : Xfer → Xfer) : (s.modXfer n f).tag = s.tag := rfl
@[simp] theorem State.modXfer_cur (s : State) (n : Nat) (f : Xfer → Xfer) : (s.modXfer n f).cur = s.cur := rfl

/-! ### signal -/

@[simp] theorem State.signal_pk (s : State) (v : Nat) :
    (s.signal v).pk = { s.pk with msix := s.pk.msix.modify v (· + 1) } := rfl
@[simp] theorem State.signal_islands (s : State) (v : Nat) : (s.signal v).islands = s.islands := rfl
@[simp] theorem State.signal_cores (s : State) (v : Nat) : (s.signal v).cores = s.cores := rfl
@[simp] theorem State.signal_looms (s : State) (v : Nat) : (s.signal v).looms = s.looms := rfl
@[simp] theorem State.signal_clusters (s : State) (v : Nat) : (s.signal v).clusters = s.clusters := rfl
@[simp] theorem State.signal_slices (s : State) (v : Nat) : (s.signal v).slices = s.slices := rfl
@[simp] theorem State.signal_dists (s : State) (v : Nat) : (s.signal v).dists = s.dists := rfl
@[simp] theorem State.signal_ports (s : State) (v : Nat) : (s.signal v).ports = s.ports := rfl
@[simp] theorem State.signal_mp (s : State) (v : Nat) : (s.signal v).mp = s.mp := rfl
@[simp] theorem State.signal_ctxs (s : State) (v : Nat) : (s.signal v).ctxs = s.ctxs := rfl
@[simp] theorem State.signal_kernels (s : State) (v : Nat) : (s.signal v).kernels = s.kernels := rfl
@[simp] theorem State.signal_teams (s : State) (v : Nat) : (s.signal v).teams = s.teams := rfl
@[simp] theorem State.signal_groups (s : State) (v : Nat) : (s.signal v).groups = s.groups := rfl
@[simp] theorem State.signal_flight (s : State) (v : Nat) : (s.signal v).flight = s.flight := rfl
@[simp] theorem State.signal_mem (s : State) (v : Nat) : (s.signal v).mem = s.mem := rfl
@[simp] theorem State.signal_agenda (s : State) (v : Nat) : (s.signal v).agenda = s.agenda := rfl
@[simp] theorem State.signal_nextId (s : State) (v : Nat) : (s.signal v).nextId = s.nextId := rfl
@[simp] theorem State.signal_freeCtr (s : State) (v : Nat) : (s.signal v).freeCtr = s.freeCtr := rfl
@[simp] theorem State.signal_tag (s : State) (v : Nat) : (s.signal v).tag = s.tag := rfl
@[simp] theorem State.signal_cur (s : State) (v : Nat) : (s.signal v).cur = s.cur := rfl

/-! ### bump -/

@[simp] theorem State.bump_pk (s : State) : (s.bump).pk = s.pk := rfl
@[simp] theorem State.bump_islands (s : State) : (s.bump).islands = s.islands := rfl
@[simp] theorem State.bump_cores (s : State) : (s.bump).cores = s.cores := rfl
@[simp] theorem State.bump_looms (s : State) : (s.bump).looms = s.looms := rfl
@[simp] theorem State.bump_clusters (s : State) : (s.bump).clusters = s.clusters := rfl
@[simp] theorem State.bump_slices (s : State) : (s.bump).slices = s.slices := rfl
@[simp] theorem State.bump_dists (s : State) : (s.bump).dists = s.dists := rfl
@[simp] theorem State.bump_ports (s : State) : (s.bump).ports = s.ports := rfl
@[simp] theorem State.bump_mp (s : State) : (s.bump).mp = s.mp := rfl
@[simp] theorem State.bump_ctxs (s : State) : (s.bump).ctxs = s.ctxs := rfl
@[simp] theorem State.bump_kernels (s : State) : (s.bump).kernels = s.kernels := rfl
@[simp] theorem State.bump_teams (s : State) : (s.bump).teams = s.teams := rfl
@[simp] theorem State.bump_groups (s : State) : (s.bump).groups = s.groups := rfl
@[simp] theorem State.bump_flight (s : State) : (s.bump).flight = s.flight := rfl
@[simp] theorem State.bump_mem (s : State) : (s.bump).mem = s.mem := rfl
@[simp] theorem State.bump_agenda (s : State) : (s.bump).agenda = s.agenda := rfl
@[simp] theorem State.bump_nextId (s : State) :
    (s.bump).nextId = s.nextId + 1 := rfl
@[simp] theorem State.bump_freeCtr (s : State) : (s.bump).freeCtr = s.freeCtr := rfl
@[simp] theorem State.bump_tag (s : State) : (s.bump).tag = s.tag := rfl
@[simp] theorem State.bump_cur (s : State) : (s.bump).cur = s.cur := rfl

/-! ### useFree -/

@[simp] theorem State.useFree_pk (s : State) : (s.useFree).pk = s.pk := rfl
@[simp] theorem State.useFree_islands (s : State) : (s.useFree).islands = s.islands := rfl
@[simp] theorem State.useFree_cores (s : State) : (s.useFree).cores = s.cores := rfl
@[simp] theorem State.useFree_looms (s : State) : (s.useFree).looms = s.looms := rfl
@[simp] theorem State.useFree_clusters (s : State) : (s.useFree).clusters = s.clusters := rfl
@[simp] theorem State.useFree_slices (s : State) : (s.useFree).slices = s.slices := rfl
@[simp] theorem State.useFree_dists (s : State) : (s.useFree).dists = s.dists := rfl
@[simp] theorem State.useFree_ports (s : State) : (s.useFree).ports = s.ports := rfl
@[simp] theorem State.useFree_mp (s : State) : (s.useFree).mp = s.mp := rfl
@[simp] theorem State.useFree_ctxs (s : State) : (s.useFree).ctxs = s.ctxs := rfl
@[simp] theorem State.useFree_kernels (s : State) : (s.useFree).kernels = s.kernels := rfl
@[simp] theorem State.useFree_teams (s : State) : (s.useFree).teams = s.teams := rfl
@[simp] theorem State.useFree_groups (s : State) : (s.useFree).groups = s.groups := rfl
@[simp] theorem State.useFree_flight (s : State) : (s.useFree).flight = s.flight := rfl
@[simp] theorem State.useFree_mem (s : State) : (s.useFree).mem = s.mem := rfl
@[simp] theorem State.useFree_agenda (s : State) : (s.useFree).agenda = s.agenda := rfl
@[simp] theorem State.useFree_nextId (s : State) : (s.useFree).nextId = s.nextId := rfl
@[simp] theorem State.useFree_freeCtr (s : State) :
    (s.useFree).freeCtr = s.freeCtr + 1 := rfl
@[simp] theorem State.useFree_tag (s : State) : (s.useFree).tag = s.tag := rfl
@[simp] theorem State.useFree_cur (s : State) : (s.useFree).cur = s.cur := rfl

/-! ### A run put back -/

@[simp] theorem Run.put_pk (r : Run) (s : State) (g : Group) : (r.put s g).pk = s.pk := rfl
@[simp] theorem Run.put_islands (r : Run) (s : State) (g : Group) : (r.put s g).islands = s.islands := rfl
@[simp] theorem Run.put_cores (r : Run) (s : State) (g : Group) : (r.put s g).cores = s.cores := rfl
@[simp] theorem Run.put_looms (r : Run) (s : State) (g : Group) : (r.put s g).looms = s.looms := rfl
@[simp] theorem Run.put_clusters (r : Run) (s : State) (g : Group) : (r.put s g).clusters = s.clusters := rfl
@[simp] theorem Run.put_slices (r : Run) (s : State) (g : Group) : (r.put s g).slices = s.slices := rfl
@[simp] theorem Run.put_dists (r : Run) (s : State) (g : Group) : (r.put s g).dists = s.dists := rfl
@[simp] theorem Run.put_ports (r : Run) (s : State) (g : Group) : (r.put s g).ports = s.ports := rfl
@[simp] theorem Run.put_mp (r : Run) (s : State) (g : Group) : (r.put s g).mp = s.mp := rfl
@[simp] theorem Run.put_ctxs (r : Run) (s : State) (g : Group) : (r.put s g).ctxs = s.ctxs := rfl
@[simp] theorem Run.put_kernels (r : Run) (s : State) (g : Group) : (r.put s g).kernels = s.kernels := rfl
@[simp] theorem Run.put_teams (r : Run) (s : State) (g : Group) : (r.put s g).teams = s.teams := rfl
@[simp] theorem Run.put_groups (r : Run) (s : State) (g : Group) : (r.put s g).groups = dset s.groups r.gid g := rfl
@[simp] theorem Run.put_flight (r : Run) (s : State) (g : Group) : (r.put s g).flight = s.flight := rfl
@[simp] theorem Run.put_mem (r : Run) (s : State) (g : Group) : (r.put s g).mem = s.mem := rfl
@[simp] theorem Run.put_agenda (r : Run) (s : State) (g : Group) : (r.put s g).agenda = s.agenda := rfl
@[simp] theorem Run.put_nextId (r : Run) (s : State) (g : Group) : (r.put s g).nextId = s.nextId := rfl
@[simp] theorem Run.put_freeCtr (r : Run) (s : State) (g : Group) : (r.put s g).freeCtr = s.freeCtr := rfl
@[simp] theorem Run.put_tag (r : Run) (s : State) (g : Group) : (r.put s g).tag = s.tag := rfl
@[simp] theorem Run.put_cur (r : Run) (s : State) (g : Group) : (r.put s g).cur = s.cur := rfl

end Sys2Proof.Machine
end

