-- ==== Sys2Proof/Tests/Slice0.lean ====
section
/-!
SUPPORT. The model's own tests: ill-formed terms that the well-formedness check refuses, words of the manual and what
they decode to, single steps on small states, and for every statement of Obligations.lean states and operands that meet
its hypotheses. Expected values come from the manual's rules and examples, by hand where it gives no number.
-/
namespace Sys2Proof.Tests
-- One theorem after another: the kernel decides them faster than they are read.
set_option Elab.async false
open Sys2Proof Sys2Proof.Machine

/-! ### Well-formed instructions -/

/-- A vector pair at an odd register, a scalar field above 63, a condition above 9 (R25, R36, R167). -/
theorem test_wf_arithmetic :
    ([.vadd 1 ⟨3, 2, 4, 0⟩, .vadd 1 ⟨2, 3, 4, 0⟩, .vadd 1 ⟨2, 4, 5, 0⟩, .vadd 0 ⟨3, 1, 64, 1⟩, .vabs ⟨3, 64, 1⟩,
      .vmov 1 ⟨3, 2, 0⟩, .vcmp 10 ⟨3, 1, 2, 0⟩, .vcmp 9 ⟨64, 1, 2, 0⟩, .vfcmp 0 ⟨64, 1, 2, 0⟩, .vsel ⟨0, 0, 64, 1⟩ 0,
      .sadd ⟨64, 0, 0⟩, .sadd ⟨0, 64, 0⟩, .sadd ⟨0, 0, 64⟩, .scmp 10 ⟨0, 0, 0⟩, .scmp 0 ⟨64, 0, 0⟩, .sabs ⟨64, 0⟩,
      .sabs ⟨0, 64⟩, .smovl 64 0 0, .saddl 64 0 0, .saddl 0 64 0, .vfcvt 0 0 0 0 13 0, .vfcvt 0 0 0 0 0 13,
      .vfcvt 0 0 1 0 11 0, .vfcvt 0 0 0 1 0 12] : List Instr).all (fun i => !i.wf) = true := by decide

/-- A counter field of 6, a required one of 7, a segment above 5, a mask above 31, a reduction above 10, a radius above the
operand's width, a register where none is written (R36, R183 to R191). -/
theorem test_wf_crosslane :
    ([.vex2 0 0 6, .vlg2 0 0 7, .vlanes 0 0 0 7, .vshflSel ⟨0, 0, 0, 0⟩ 0 6, .vshflRol ⟨0, 0, 0, 0⟩ 6 0,
      .vshflSlide ⟨0, 0, 64, 1⟩ 0 0, .vshflAx ⟨0, 0, 32, 0⟩ 0 0, .vshflAx ⟨0, 0, 64, 1⟩ 0 0, .vvoteAny 64 0 0,
      .vvoteAll 0 0 6, .vvoteBallot 64 0 0, .vred 0 0 11 0 0, .vred 64 0 0 0 0, .vred 0 0 0 0 7, .vscan 0 0 11 0 0,
      .vscan 0 0 0 0 6, .vhamm 0 ⟨0, 0, 0, 33, 0, 0, 0⟩, .vhamm 1 ⟨0, 0, 0, 65, 0, 0, 0⟩, .vhamm 1 ⟨0, 1, 0, 0, 0, 0, 0⟩,
      .vhamm 0 ⟨0, 0, 0, 0, 7, 0, 0⟩, .vhamm 0 ⟨0, 0, 0, 0, 0, 0, 1⟩, .vhamm 1 ⟨0, 0, 0, 0, 0, 1, 1⟩] : List Instr).all
      (fun i => !i.wf) = true := by decide

/-- No index with an index register or a scale, a scope or a size above its range, a scope on a plain access, a policy on a
scratchpad access, sizes an instruction has not, sub-operations an atomic has not (R36, R193 to R209). -/
theorem test_wf_memory :
    ([.ldg ⟨0, 0, 1, 0, 0, 0, 0, 0, 1, 0⟩, .ldg ⟨0, 0, 0, 1, 0, 0, 0, 0, 1, 0⟩, .ldg ⟨0, 0, 0, 0, 0, 0, 6, 0, 0, 0⟩,
      .ldg ⟨0, 0, 0, 0, 0, 0, 0, 0, 0, 7⟩, .ldg ⟨0, 0, 0, 0, 0, 0, 1, 0, 0, 0⟩, .ldg ⟨0, 0, 0, 0, 0, 7, 0, 0, 0, 0⟩,
      .ldg ⟨1, 0, 0, 0, 0, 0, 0, 0, 0, 3⟩, .ldg ⟨2, 0, 0, 0, 0, 0, 0, 0, 0, 4⟩, .stg ⟨0, 0, 0, 0, 0, 6, 0, 0, 0, 0⟩,
      .ldgu ⟨0, 0, 0, 0, 0, 0, 0, 0, 0, 0⟩, .ldgu ⟨64, 0, 0, 0, 0, 0, 0, 0, 1, 0⟩, .ldgu ⟨0, 0, 0, 0, 0, 0, 0, 0, 1, 4⟩,
      .lds ⟨0, 0, 0, 0, 0, 0, 0, 1, 0, 0⟩, .sts ⟨0, 0, 0, 0, 0, 0, 1, 0, 0, 0⟩, .ldx ⟨0, 0, 0, 0, 0, 7, 0, 0, 0, 0⟩,
      .stx ⟨0, 0, 0, 0, 0, 0, 0, 2, 0, 0⟩, .ldrot ⟨0, 0, 0, 0, 0, 0, 0, 0, 0, 2⟩, .stnt ⟨0, 0, 0, 0, 0, 0, 0, 0, 0, 0⟩,
      .stnt ⟨0, 0, 0, 0, 0, 7, 0, 1, 0, 0⟩, .pref ⟨1, 0, 0, 0, 0, 0, 0, 0, 0, 0⟩, .pref ⟨0, 0, 0, 0, 0, 0, 0, 3, 0, 0⟩,
      .pref ⟨0, 0, 0, 0, 0, 0, 0, 0, 0, 2⟩, .drain 7, .cinv 1 0 1 0, .cinv 0 1 1 0, .cinv 0 0 0 6, .seal ⟨0, 0, 0, 7⟩,
      .unseal ⟨0, 0, 0, 6⟩, .atomg 10 ⟨0, 0, 0, 0, 0, 0, 0, 0, 0, 2⟩, .atomg 9 ⟨0, 0, 0, 0, 0, 0, 0, 0, 0, 3⟩,
      .atomg 0 ⟨0, 0, 0, 0, 0, 0, 0, 0, 0, 1⟩, .atomg 0 ⟨0, 0, 0, 0, 0, 6, 0, 0, 0, 2⟩, .casg ⟨0, 0, 0, 0, 0, 7, 0, 0, 0, 2⟩,
      .casg ⟨1, 0, 0, 0, 0, 0, 0, 0, 0, 2⟩, .casg ⟨2, 0, 0, 0, 0, 0, 0, 0, 0, 3⟩, .atoms 0 ⟨0, 0, 0, 0, 0, 0, 4, 0, 0, 2⟩,
      .cass ⟨0, 0, 0, 0, 0, 0, 4, 0, 0, 2⟩, .atomx 0 ⟨0, 0, 0, 0, 0, 0, 5, 0, 0, 2⟩, .atomxCas ⟨0, 0, 0, 0, 0, 0, 0, 0, 0, 0⟩]
      : List Instr).all (fun i => !i.wf) = true := by decide

/-- The counters, formats, barrier numbers and pair registers of the loom, porter, control, chandler, hoop and system
instructions (R36, R213 to R226, R284 to R304, R325 to R331, R348, R366). -/
theorem test_wf_system :
    ([.acqb 0 0 7, .mma 0 0 0 0 7, .mzero 0 6, .mstat 0 7, .mdrn ⟨0, 0, 0, 5, 0, 0, 0, 0, 0, 0, 0⟩,
      .mdrn ⟨0, 0, 1, 0, 0, 0, 0, 0, 0, 0, 0⟩, .mdrn ⟨0, 0, 0, 0, 0, 0, 7, 0, 0, 0, 0⟩, .mdrn ⟨0, 0, 0, 0, 0, 0, 0, 0, 0, 0, 1⟩,
      .mdrn ⟨0, 0, 0, 0, 0, 0, 6, 0, 0, 1, 0⟩, .pcpy ⟨0, 0, 0, 7⟩ 0 0 0, .pput ⟨0, 0, 0, 0⟩ 0 0 1, .pscat ⟨0, 0, 0, 6⟩ 0 1 1,
      .pgath ⟨0, 0, 0, 0⟩ 0 0 1 0 0, .pquant ⟨0, 0, 0, 0⟩ 5 0 0, .pstream ⟨0, 0, 0, 7⟩ 0, .pstop 0 7, .bseal 0 6,
      .fence 0 0, .fence 1 6, .dwait 6 0, .passpri 0 0 1, .sleep 0 0 1, .barv 0 1 7, .barv 0 0 6, .btest 0 0 1 1 0,
      .btest 0 0 0 0 7, .alloc ⟨0, 0, 7⟩, .skapp ⟨0, 0, 0, 7⟩ 0, .sklook ⟨1, 0, 0⟩, .sklook ⟨0, 1, 0⟩, .skset ⟨0, 0, 1, 0⟩,
      .skswap ⟨0, 1, 0, 0⟩, .skswap ⟨0, 0, 1, 0⟩, .asdecl ⟨0, 0, 0, 7⟩, .asdrop ⟨0, 0, 6⟩, .asqry ⟨1, 0, 0⟩, .vstat 0 7,
      .srd 64 2, .srd 0 0x10, .srd 0 0x25, .swr 0 0x0E, .swr 64 0x0F] : List Instr).all (fun i => !i.wf) = true := by decide

/-- The instructions at the ends of those ranges are well formed. -/
theorem test_wf_boundaries :
    ([.vadd 1 ⟨126, 2, 63, 1⟩, .vcmp 9 ⟨63, 127, 127, 0⟩, .vfcvt 1 3 126 2 12 11, .vred 127 127 10 1 5, .vshflAx ⟨0, 0, 31, 0⟩ 5 5,
      .vhamm 1 ⟨63, 126, 63, 64, 5, 1, 126⟩, .ldg ⟨124, 63, 127, 3, 0xFFFFF, 5, 0, 3, 0, 4⟩, .stnt ⟨0, 0, 0, 0, 0, 7, 0, 0, 1, 6⟩,
      .atomg 9 ⟨0, 0, 0, 0, 0, 7, 5, 3, 0, 2⟩, .casg ⟨124, 0, 0, 0, 0, 5, 5, 0, 0, 3⟩, .atomx 8 ⟨0, 0, 0, 0, 0, 7, 3, 0, 0, 3⟩,
      .mdrn ⟨7, 15, 63, 4, 1, 1, 7, 255, 255, 1, 15⟩, .fence 3 5, .dwait 5 63, .barv 15 0 7, .sklook ⟨62, 62, 5⟩, .srd 127 1,
      .srd 63 0x24, .swr 63 0x0F] : List Instr).all Instr.wf = true := by decide

/-- A register above the role's granules of 8 registers does not fit (R24). -/
theorem test_budget : (Instr.vadd 1 ⟨6, 6, 6, 0⟩).fitsBudget 1 = true ∧ (Instr.vadd 1 ⟨8, 6, 6, 0⟩).fitsBudget 1 = false := by
  decide

/-! ### Words of the manual (R36, R47 to R58, and the examples of the instruction chapters) -/

/-- Class 0 words: V[4] + V[2] to V[3] in its fields d, a, b; a pair plus a scalar; a comparison into a lane mask. -/
theorem test_decode_integer :
    decodeTableWord 32 0x00018104 = some (.vadd 0 ⟨3, 1, 2, 0⟩) ∧ decodeTableWord 32 0x00420615 = some (.vadd 1 ⟨4, 6, 10, 1⟩)
    ∧ decodeTableWord 32 0x08828805 = some (.vcmp 2 ⟨5, 8, 2, 1⟩) := by decide +kernel

/-- Class 1 words (02_encoding.md; R180): vfma with a scalar b, and a saturating conversion of FP32 to E4M3. -/
theorem test_decode_floating :
    decodeTableWord 32 0x3002050D = some (.vfma 0 ⟨4, 5, 6, 1⟩)
    ∧ decodeTableWord 32 0x29030530 = some (.vfcvt 1 0 6 5 3 0) := by decide +kernel

/-- Class 2 words (R190): vex2 under counter 1, and vhamm with its extension word. -/
theorem test_decode_crosslane :
    decodeTableWord 32 0x40048A20 = some (.vex2 9 10 1)
    ∧ decodeTableWord 64 0x000805284A071818 = some (.vhamm 0 ⟨7, 12, 3, 8, 2, 1, 20⟩) := by decide +kernel

/-- Class 3 words (02_encoding.md, 10_memory_control_instructions.md, 25_program_beam.md). -/
theorem test_decode_memory :
    decodeTableWord 64 0x000100026004081E = some (.ldg ⟨8, 4, 7, 2, 16, 0, 0, 0, 0, 2⟩)
    ∧ decodeTableWord 64 0x00000E026041081E = some (.stg ⟨2, 4, 7, 2, 0, 7, 0, 0, 0, 2⟩)
    ∧ decodeTableWord 64 0x0000003260018A08 = some (.ldg ⟨3, 5, 2, 0, 0, 0, 0, 3, 0, 2⟩)
    ∧ decodeTableWord 64 0x0000032B64020C00 = some (.atomg 0 ⟨4, 6, 0, 0, 0, 1, 4, 2, 1, 3⟩)
    ∧ decodeTableWord 64 0x0008070A64079000 = some (.atomg 0 ⟨15, 8, 0, 0, 128, 3, 4, 0, 1, 2⟩) := by decide +kernel

/-- Class 4 words (15_looms.md). -/
theorem test_decode_loom :
    decodeTableWord 32 0x80414800 = some (.acqb 0 10 2) ∧ decodeTableWord 32 0x80004000 = some (.thdef 0 4)
    ∧ decodeTableWord 32 0x80045000 = some (.thdef 1 5) ∧ decodeTableWord 32 0x80086000 = some (.thdef 2 6)
    ∧ decodeTableWord 32 0x80C00860 = some (.mma 0 0 1 6 0) ∧ decodeTableWord 32 0x80C00864 = some (.mma 0 0 1 6 2)
    ∧ decodeTableWord 64 0x0000980081410041 = some (.mdrn ⟨0, 2, 0, 2, 0, 0, 1, 0, 0, 1, 3⟩)
    ∧ decodeTableWord 64 0x0000000081410003 = some (.mdrn ⟨0, 2, 0, 0, 0, 0, 3, 0, 0, 0, 0⟩) := by decide +kernel

/-- Class 5 words (14_porters_batches.md, 23 and 25). -/
theorem test_decode_porter :
    decodeTableWord 64 0x1E200000A0041460 = some (.pcpy ⟨4, 5, 6, 0⟩ 7 1 1)
    ∧ decodeTableWord 64 0x1E000000A0041464 = some (.pcpy ⟨4, 5, 6, 2⟩ 7 1 0)
    ∧ decodeTableWord 64 0x1C000000A0045064 = some (.pcpy ⟨4, 20, 6, 2⟩ 7 0 0)
    ∧ decodeTableWord 64 0x20000000A1A6AAB4 = some (.pquant ⟨38, 42, 43, 2⟩ 2 0 0)
    ∧ decodeTableWord 32 0xA1C80002 = some (.bseal 8 1) ∧ decodeTableWord 32 0xA2080000 = some (.bwait 8) := by decide +kernel

/-- Class 6 words of control and of barriers (13_barriers.md, 22 and 23). -/
theorem test_decode_control :
    decodeTableWord 32 0xC0400040 = some (.dwait 1 0) ∧ decodeTableWord 32 0xC44B1400 = some (.launch 22 20)
    ∧ decodeTableWord 32 0xC0952940 = some (.waitc 21 10 20) ∧ decodeTableWord 32 0xC20A0003 = some (.brd 10 3)
    ∧ decodeTableWord 32 0xC240000F = some (.jmp 15) ∧ decodeTableWord 32 0xC608A2CC = some (.binit 2 10 11 12)
    ∧ decodeTableWord 32 0xC648D200 = some (.barv 2 13 1) ∧ decodeTableWord 32 0xC6C8D000 = some (.bwaitp 2 13)
    ∧ decodeTableWord 32 0xC6400E00 = some (.barv 0 0 7) := by decide +kernel

/-- Class 6 words of the chandler and of hoops (17_hoops_versions.md, 25_program_beam.md). -/
theorem test_decode_chandler :
    decodeTableWord 32 0xC9A06802 = some (.skclone ⟨32, 26, 1⟩) ∧ decodeTableWord 32 0xC9269002 = some (.sklook ⟨38, 36, 1⟩)
    ∧ decodeTableWord 32 0xC82A2402 = some (.alloc ⟨42, 9, 1⟩) ∧ decodeTableWord 32 0xCA2D92E2 = some (.skswap ⟨45, 36, 46, 1⟩)
    ∧ decodeTableWord 32 0xC978D403 = some (.sktrimDel ⟨56, 53, 1⟩)
    ∧ decodeTableWord 32 0xCC0C1052 = some (.asdecl ⟨12, 4, 5, 1⟩) := by decide +kernel

/-- Class 7 words by the encodings of R225 and R226: `srd v7, %tid`, `swr %fmode, s5` and `tmark s3, 0xBEEF`. -/
theorem test_decode_system :
    decodeTableWord 32 0xE0038001 = some (.srd 7 1) ∧ decodeTableWord 32 0xE040050F = some (.swr 5 0x0F)
    ∧ decodeTableWord 32 0xE083BEEF = some (.tmark 3 0xBEEF) := by decide +kernel

/-- A scalar twin has sb = 1 (R51), reserved bits are zero (R36), an opcode with no row is none (R47). -/
theorem test_decode_refused :
    decodeTableWord 32 0x10018105 = some (.sadd ⟨3, 1, 2⟩) ∧ decodeTableWord 32 0x10018104 = none
    ∧ decodeTableWord 32 0xE0038101 = none ∧ decodeTableWord 32 0xC3000001 = none
    ∧ decodeTableWord 32 0xFFC00000 = none := by decide +kernel

/-! ### Small states -/

/-- A group with registers of its lanes, scalars, and the mask of its first split. -/
def withRegs (vs : List (Nat × Nat × Word)) (ss : List (Nat × DWord)) (m : LaneMask) (g : Group) : Group :=
  let g := vs.foldl (fun g e => g.setV e.1 e.2.1 e.2.2) g
  let g := ss.foldl (fun g e => g.setS e.1 e.2) g
  g.setSplit 0 { g.split 0 with mask := m }

/-- The bench of State.bench after reset: context 1, kernel 0, team 1, group 2, which runs its split 0. -/
def bench0 : State := State.reset.bench [0x00018104]

/-- The bench with registers and a mask. -/
def bench (vs : List (Nat × Nat × Word)) (ss : List (Nat × DWord)) (m : LaneMask) : State :=
  bench0.modGroup 2 (withRegs vs ss m)

/-- A register of the bench group in a lane after a step. -/
def outV (o : Out) (n l : Nat) : Option Word :=
  match o with
  | .next t => (dget t.groups 2).map fun g => g.vreg n l
  | _ => none

/-- A scalar of the bench group after a step. -/
def outS (o : Out) (n : Nat) : Option DWord :=
  match o with
  | .next t => (dget t.groups 2).map fun g => g.sreg n
  | _ => none

/-- A second step after a first. -/
def andThen (o : Out) (f : State → Out) : Out :=
  match o with
  | .next t => f t
  | o => o

/-- A property of the state after a step. -/
def after (o : Out) (p : State → Bool) : Bool :=
  match o with
  | .next t => p t
  | _ => false

/-- The running split of a state, with a property of it. -/
theorem run_ok {s : State} {P : Run → Prop} [DecidablePred P]
    (h : (match s.running with
      | some r => decide (P r)
      | none => false) = true) : ∃ r, s.running = some r ∧ P r := by
  split at h
  · rename_i r hr
    exact ⟨r, hr, of_decide_eq_true h⟩
  · exact absurd h (by decide)

/-! ### Steps of arithmetic instructions -/

/-- The sum wraps in an active lane; an inactive lane keeps its register (R165, R27). -/
theorem test_vadd :
    let o := exec (.vadd 0 ⟨3, 1, 2, 0⟩) (bench [(1, 0, 0xFFFFFFFF), (2, 0, 1), (3, 0, 7), (3, 1, 9), (1, 1, 5)] [] 1)
    outV o 3 0 = some 0 ∧ outV o 3 1 = some 9 := by decide +kernel

/-- A pair plus a scalar of 64 bits carries into the high register (R25, R162). -/
theorem test_vadd_pair :
    let o := exec (.vadd 1 ⟨4, 6, 10, 1⟩) (bench [(6, 0, 0xFFFFFFFF), (7, 0, 2)] [(10, 0x100000001)] 1)
    outV o 4 0 = some 0 ∧ outV o 5 0 = some 4 := by decide +kernel

/-- The example of a 64-bit add in 32-bit halves (09_compute_instructions.md, R169). -/
theorem test_vaddc :
    let s := bench [(2, 0, 0xFFFFFFF0), (4, 0, 0x20), (2, 1, 1), (4, 1, 2)] [] 3
    let o := exec (.vaddc ⟨6, 2, 4, 0⟩ 10 9) s
    let o2 := andThen o (exec (.vaddc ⟨7, 3, 5, 0⟩ 11 10))
    outV o 6 0 = some 0x10 ∧ outV o 6 1 = some 3 ∧ outS o 10 = some 1 ∧ outV o2 7 0 = some 1 ∧ outV o2 7 1 = some 0
    ∧ outS o2 11 = some 0 := by decide +kernel

/-- A borrow: 0 - 1 gives all ones and sets the lane's bit (R169). -/
theorem test_vsubb :
    let o := exec (.vsubb ⟨3, 1, 2, 0⟩ 4 5) (bench [(2, 0, 1), (2, 1, 1), (1, 1, 1)] [] 3)
    outV o 3 0 = some 0xFFFFFFFF ∧ outV o 3 1 = some 0 ∧ outS o 4 = some 1 := by decide +kernel

/-- -2 · 3 has the high half -1 signed, 2 unsigned (R165). -/
theorem test_vmulhi :
    let s := bench [(1, 0, 0xFFFFFFFE), (2, 0, 3)] [] 1
    outV (exec (.vmulhi 0 ⟨3, 1, 2, 0⟩) s) 3 0 = some 0xFFFFFFFF ∧ outV (exec (.vmulhi 1 ⟨3, 1, 2, 0⟩) s) 3 0 = some 2 := by
  decide +kernel

/-- The absolute value of -2^31 is 0x8000_0000 (R165); a shift takes its count modulo 32; a zero has 32 leading zeros. -/
theorem test_vabs_vshl_vclz :
    let s := bench [(1, 0, 0x80000000), (2, 0, 33)] [] 1
    outV (exec (.vabs ⟨3, 1, 0⟩) s) 3 0 = some 0x80000000 ∧ outV (exec (.vshl ⟨3, 2, 2, 0⟩) s) 3 0 = some 66
    ∧ outV (exec (.vsar ⟨3, 1, 2, 0⟩) s) 3 0 = some 0xC0000000 ∧ outV (exec (.vrot ⟨3, 1, 2, 0⟩) s) 3 0 = some 1
    ∧ outV (exec (.vclz ⟨3, 9, 0⟩) s) 3 0 = some 32 ∧ outV (exec (.vpopc ⟨3, 2, 0⟩) s) 3 0 = some 2 := by decide +kernel

/-- The field of 4 bits at 4 of 0x9A is 9 unsigned and -7 signed; inserting 5 there gives 0x5A (R166). -/
theorem test_vbfe_vbfi :
    let s := bench [(1, 0, 0x9A), (2, 0, 0x0404), (4, 0, 5), (5, 0, 0x9A)] [] 1
    outV (exec (.vbfe 0 ⟨3, 1, 2, 0⟩) s) 3 0 = some 9 ∧ outV (exec (.vbfe 1 ⟨3, 1, 2, 0⟩) s) 3 0 = some 0xFFFFFFF9
    ∧ outV (exec (.vbfi ⟨5, 4, 2, 0⟩) s) 5 0 = some 0x5A := by decide +kernel

/-- A comparison writes a mask: bits of inactive lanes are zero, and so is the high half (R26, R167). -/
theorem test_vcmp_vsel :
    let s := bench [(8, 0, 0xFFFFFFFF), (8, 2, 5), (8, 1, 0xFFFFFFFF)] [(2, 3), (5, 0xFFFFFFFFFFFFFFFF)] 5
    outS (exec (.vcmp 2 ⟨5, 8, 2, 1⟩) s) 5 = some 1 ∧ outS (exec (.vcmp 6 ⟨5, 8, 2, 1⟩) s) 5 = some 0
    ∧ outV (exec (.vsel ⟨3, 8, 9, 0⟩ 5) s) 3 2 = some 5 := by decide +kernel

/-- Scalars: the high half of a signed product, a negative literal, the high word of smovl, a carry out (R171 to R173). -/
theorem test_scalar :
    let s := bench [] [(1, 0xFFFFFFFFFFFFFFFE), (2, 3), (3, 0x1122334455667788)] 1
    outS (exec (.smulhiI64 ⟨4, 1, 2⟩) s) 4 = some 0xFFFFFFFFFFFFFFFF ∧ outS (exec (.smulhiN64 ⟨4, 1, 2⟩) s) 4 = some 2
    ∧ outS (exec (.saddl 4 2 0xFFFFFFFC) s) 4 = some 0xFFFFFFFFFFFFFFFF
    ∧ outS (exec (.smovl 3 1 0xAABBCCDD) s) 3 = some 0xAABBCCDD55667788
    ∧ outS (exec (.smovl 3 0 0x80000000) s) 3 = some 0xFFFFFFFF80000000
    ∧ outS (exec (.saddc ⟨4, 1, 2⟩ 5 6) s) 4 = some 1 ∧ outS (exec (.saddc ⟨4, 1, 2⟩ 5 6) s) 5 = some 1 := by decide +kernel

/-- 1 + 2^-24 lies halfway: to even it is 1, upwards the next number (R69); -0 is below +0 (R73); with FTZ a subnormal is
zero (R72). -/
theorem test_float_rounding :
    let s := bench [(1, 0, 0x3F800000), (2, 0, 0x33800000), (4, 0, 0x80000000), (5, 0, 1)] [] 1
    outV (exec (.vfadd 0 ⟨3, 1, 2, 0⟩) s) 3 0 = some 0x3F800000 ∧ outV (exec (.vfadd 2 ⟨3, 1, 2, 0⟩) s) 3 0 = some 0x3F800000
    ∧ outV (exec (.vfadd 3 ⟨3, 1, 2, 0⟩) s) 3 0 = some 0x3F800001
    ∧ outV (exec (.vfmin ⟨3, 4, 9, 0⟩) s) 3 0 = some 0x80000000 ∧ outV (exec (.vfmax ⟨3, 4, 9, 0⟩) s) 3 0 = some 0
    ∧ outV (exec (.vfadd 0 ⟨3, 5, 9, 0⟩) s) 3 0 = some 1
    ∧ outV (exec (.vfadd 0 ⟨3, 5, 9, 0⟩) (s.modGroup 2 fun g => { g with fmode := 1 })) 3 0 = some 0 := by decide +kernel

/-- 1.5 · 1.5 + 0.75 is 3, rounded once; 1000 saturates to 448 in E4M3 and is a NaN without saturation; -1.5 rounds to -2
to even and to -1 towards zero (R69, R71, R174, R179, R180). -/
theorem test_float_convert :
    let s := bench [(1, 0, 0x3FC00000), (3, 0, 0x3F400000), (4, 0, 0x447A0000), (5, 0, 0xBFC00000)] [] 1
    outV (exec (.vfma 0 ⟨3, 1, 1, 0⟩) s) 3 0 = some 0x40400000 ∧ outV (exec (.vfcvt 1 0 6 4 3 0) s) 6 0 = some 0x7E
    ∧ outV (exec (.vfcvt 0 0 6 4 3 0) s) 6 0 = some 0x7F ∧ outV (exec (.vfrnd 0 ⟨6, 5, 0⟩) s) 6 0 = some 0xC0000000
    ∧ outV (exec (.vfrnd 1 ⟨6, 5, 0⟩) s) 6 0 = some 0xBF800000 := by decide +kernel

/-- The example of vhamm and of the vlanes that follows it (09_compute_instructions.md, R190, R191). -/
theorem test_vhamm_vlanes :
    let s := bench [(12, 0, 0x0F0F00FF), (12, 1, 0x0F0F00FE), (12, 2, 0xF0F000FF), (12, 3, 0x0F0F0000)] [(3, 0x0F0F00FF)] 15
    let o := andThen (exec (.vhamm 0 ⟨7, 12, 3, 8, 2, 1, 20⟩) s) (exec (.crosslaneResult 3 0xFFFFFFFF))
    let o2 := andThen (andThen o (exec (.vlanes 21 7 9 2))) (exec (.crosslaneResult 4 0xFFFFFFFF))
    outS o 7 = some 0xB ∧ (List.range 4).map (outV o 20) = [some 0, some 1, some 16, some 8]
    ∧ (List.range 4).map (outV o2 21) = [some 0, some 1, some 2, some 2] ∧ outS o2 9 = some 3 := by decide +kernel

/-- A rotation by 1 in segments of 4, a slide by 1 that leaves the last lane as it was, an exclusive scan whose first lane is
the identity, a vote (R186 to R189). -/
theorem test_crosslane :
    let s := bench [(1, 0, 10), (1, 1, 11), (1, 2, 12), (1, 3, 13), (2, 3, 99)] [] 15
    let res := fun i => andThen (exec i s) (exec (.crosslaneResult 3 0xFFFFFFFF))
    (List.range 4).map (outV (res (.vshflRol ⟨2, 1, 1, 0⟩ 0 2)) 2) = [some 11, some 12, some 13, some 10]
    ∧ (List.range 4).map (outV (res (.vshflSlide ⟨2, 1, 1, 0⟩ 0 2)) 2) = [some 11, some 12, some 13, some 99]
    ∧ (List.range 4).map (outV (res (.vscan 2 1 0 1 0)) 2) = [some 0, some 10, some 21, some 33]
    ∧ outS (res (.vred 5 1 0 0 0)) 5 = some 46 ∧ outS (res (.vvoteBallot 5 2 0)) 5 = some 8 := by decide +kernel

/-- The special functions of their exact table inputs (R184). -/
theorem test_sfu :
    let s := bench [(1, 0, 0x80000000)] [] 1
    let res := fun i => andThen (exec i s) (exec (.sfuResult 3 0xFFFFFFFF))
    outV (res (.vex2 2 1 0)) 2 0 = some 0x3F800000 ∧ outV (res (.vrcp 2 1 0)) 2 0 = some 0xFF800000
    ∧ outV (res (.vsint 2 1 0)) 2 0 = some 0x80000000 := by decide +kernel

/-! ### States that meet the hypotheses of the statements -/

/-- A counter that an instruction names, if it names one, does not stand at 63, as a Bool. -/
def countableB (r : Run) (dc : DcField) : Bool := (dcOf dc).all fun k => r.g.cnt k != 63

theorem countable_of {r : Run} {dc : DcField} (h : countableB r dc = true) : Countable r dc := by
  intro k hk
  simp only [countableB, hk, Option.all_some, bne_iff_ne] at h
  exact h

/-- OpenPage as a Bool. -/
def openB (s : State) (t : Team) (a : AccType) (va : Nat) : Bool :=
  canonical va && (s.pageAt t.asid va).any fun x => x.2.2.permits a && decide (x.2.2.st = .resident)
    && decide (t.mode = .normal → s.regionAt t.asid va = none) && decide (t.mode = .version → x.2.2.back ≠ 2)

theorem openPage_of {s : State} {t : Team} {a : AccType} {va : Nat} (h : openB s t a va = true) : OpenPage s t a va := by
  simp only [openB, Bool.and_eq_true, Option.any_eq_true, decide_eq_true_eq] at h
  obtain ⟨hc, ⟨x, b, p⟩, hp, ⟨⟨hr, hs⟩, hm⟩, hv⟩ := h
  exact ⟨hc, x, b, p, hp, hr, hs, hm, hv⟩

/-- The step answers a next state. -/
def goes (o : Out) : Bool := after o fun _ => true

/-- VectorIntegerResults, ScalarIntegerResults, SystemInstructions, BranchesEndsAndTraps: a split runs, with its last lane
active alone. -/
theorem witness_running : ∃ (s : State) (r : Run), s.running = some r ∧ r.act = 0x80000000 :=
  ⟨bench [] [] 0x80000000, run_ok (by decide +kernel)⟩

/-- FloatingResults: conversions to one register and to two. -/
theorem witness_FloatingResults : ∃ (s : State) (r : Run), s.running = some r ∧ typeRegs 10 ≠ 2 ∧ typeRegs 11 = 2 :=
  ⟨bench [] [] 1, run_ok (by decide +kernel)⟩

/-- ExactValuesKept: the largest finite encoding, the smallest number and a zero of either sign, of two formats. -/
theorem witness_ExactValuesKept :
    (∀ n ∈ [0, 1, 0x7F7FFFFF, 0x7F800000, 0x80000000, 0xFF800000], n < 2 ^ f32.width ∧ f32.value n ≠ .nan)
    ∧ ∀ n ∈ [0, 1, 0x7E, 0x80, 0xFE], n < 2 ^ e4m3.width ∧ e4m3.value n ≠ .nan := by decide +kernel

/-- NumbersOutOfRange: a value that overflows, and operands of each clause. -/
theorem witness_NumbersOutOfRange :
    f32.maxField < f32.round .rne false (.fin false 1 200) % 2 ^ (f32.ebits + f32.frac)
    ∧ e4m3.maxField < e4m3.round .rne false (.fin true 1 9) % 2 ^ (e4m3.ebits + e4m3.frac)
    ∧ f32.value 0x7FC00000 = .nan ∧ f32.value 0x3F800000 ≠ .nan
    ∧ (f32.value 0xBF800000).lt (f32.value 1) = true ∧ (f32.value 0).lt (f32.value 0x80000000) = false := by decide +kernel

/-- The bench with counter 5 at 62. -/
def sCnt : State := (bench [] [] 1).modGroup 2 fun g => { g with dc := [0, 0, 0, 0, 0, 62] }

/-- SpecialFunctions, CrossLaneIssue: a counter at its last free value; a NaN; a negative operand at either end. -/
theorem witness_counters :
    ∃ (s : State) (r : Run), s.running = some r ∧ r.g.cnt 5 = 62 ∧ CounterFree r 5 ∧ f32.value 0xFFC00000 = .nan
      ∧ (0x80000001#32).toNat ≤ 0xFF800000 ∧ 0x80000000 < (0x80000001#32).toNat
      ∧ (∀ i ∈ [Instr.vex2 1 2 5, .vlg2 1 2 5, .vrcp 1 2 5, .vrsq 1 2 5, .vsqrt 1 2 5, .vsint 1 2 5, .vcost 1 2 5, .vtanh 1 2 5,
          .vscan 1 2 10 1 5], goes (exec i s) = true) :=
  let ⟨r, h, h1, h2⟩ := run_ok (s := sCnt) (P := fun r => r.g.cnt 5 = 62 ∧ _) (by decide +kernel)
  ⟨_, r, h, h1, ⟨by decide, fun h => absurd (h1.symm.trans h) (by decide)⟩, h2⟩

/-- A single-precision number is finite, and a test holds of its sign, significand and exponent. -/
def finB (x : Nat) (f : Bool → Nat → Int → Bool) : Bool :=
  match f32.value x with
  | .fin neg m k => f neg m k
  | _ => false

/-- SpecialFunctions: both ends of the ranges; 1/4 and -3/4 of a turn; 127 and -126; the smallest number and 2^127 (R184). -/
theorem witness_SpecialFunctions :
    sfu 0 0x43000000 = 0x7F800000 ∧ sfu 0 0xC3160000 = 0 ∧ sfu 7 0x41100000 = 0x3F800000 ∧ sfu 7 0xFF800000 = 0xBF800000
    ∧ (∀ e ∈ [(0x3E800000, 1, 0x3F800000), (0xBF400000, 3, 0x3F800000)], sfu 5 (BitVec.ofNat 32 e.1) = e.2.2
        ∧ finB e.1 (fun _ m k => m != 0 && m * 2 ^ (k + 149).toNat == e.2.1 * 2 ^ 147) = true)
    ∧ (∀ e ∈ [(0x42FE0000, 127, 0x7F000000), (0xC2FC0000, 126, 0x00800000)], sfu 0 (BitVec.ofNat 32 e.1) = e.2.2
        ∧ finB e.1 (fun _ m k => m != 0 && m * 2 ^ (k + 149).toNat == e.2.1 * 2 ^ 149) = true)
    ∧ ∀ e ∈ [(0x00000001, 0, 0xC3150000), (0x7F000000, 23, 0x42FE0000)], sfu 1 (BitVec.ofNat 32 e.1) = e.2.2
        ∧ finB e.1 (fun neg m _ => !neg && m == 2 ^ e.2.1) = true := by decide +kernel

/-- An operation of the bench group in flight, under counter 1. -/
def op0 : Op :=
  { group := 2, team := 1, core := 0, fam := .memory, dc := some 1, hdr := 0x800, idx := 1, word := 0, slot := 0, mask := 3,
    after := [], waits := [], work := .none, vout := [], sout := [], marks := [], passed := none, fgts := none, at1000 := 0 }

/-- A state with that operation in flight under number 3, and its group's counter at 1. -/
def withOp (s : State) (o : Op) : State :=
  { s with flight := [(3, o)], nextId := 4 }.modGroup 2 fun g => { g with dc := [0, 1, 0, 0, 0, 0] }

/-- ResultDelivery: results of two lanes and a scalar, of which all, one or none are delivered. -/
theorem witness_ResultDelivery :
    ∃ (s : State) (o : Op) (g : Group), dget s.flight 3 = some o ∧ dget s.groups o.group = some g ∧ o.work = .none
      ∧ o.vout = [0, 31].map (fun l => ⟨l, 5, [BitVec.ofNat 32 l]⟩) ∧ o.fam = .crosslane
      ∧ outV (exec (.crosslaneResult 3 0x80000000) s) 5 31 = some 31 ∧ outS (exec (.crosslaneResult 3 0x80000001) s) 6 = some 7
      ∧ outS (exec (.crosslaneResult 3 1) s) 6 = some 0 :=
  ⟨withOp (bench [] [] 3)
      { op0 with fam := .crosslane, vout := [⟨0, 5, [0]⟩, ⟨31, 5, [31]⟩], sout := [(6, 7)] },
    _, _, rfl, rfl, rfl, rfl, rfl, by decide +kernel⟩

/-! ### Memory -/

/-- A word access of size code 2 at scalar 4 plus lane register 7, under counter 5. -/
def fm0 : Fm := ⟨8, 4, 7, 0, 0, 5, 0, 0, 0, 2⟩

/-- Lanes 0 and 1 name the first and the last word of the page at 0. -/
def sMem : State := bench [(7, 1, 0x1FFFFC), (8, 1, 0xAABBCCDD)] [] 3

/-- MemoryIssue, global accesses: lanes at both ends of a page (ldg, stg, stnt, pref, atomg, casg). -/
theorem witness_MemoryIssue_global :
    ∃ (s : State) (r : Run), s.running = some r ∧ r.g.st = .live ∧ r.act ≠ 0 ∧ Countable r 5 ∧ r.t.versioned = false
      ∧ (∀ l ∈ lanesOf r.act, (r.ea fm0 l).toNat % sizeBytes fm0.size = 0 ∧ OpenPage s r.t .read (r.ea fm0 l).toNat
        ∧ OpenPage s r.t .write (r.ea fm0 l).toNat ∧ OpenPage s r.t .atomic (r.ea fm0 l).toNat)
      ∧ goes (exec (.ldg fm0) s) = true ∧ goes (exec (.stg fm0) s) = true ∧ goes (exec (.stnt fm0) s) = true
      ∧ goes (exec (.pref fm0) s) = true ∧ goes (exec (.atomg 9 fm0) s) = true ∧ goes (exec (.casg fm0) s) = true := by
  obtain ⟨r, h, h0, h1, h2, h3, h4, h5⟩ := run_ok (s := sMem) (P := fun r => r.g.st = .live ∧ r.act ≠ 0 ∧ countableB r 5 = true
    ∧ r.t.versioned = false ∧ (∀ l ∈ lanesOf r.act, (r.ea fm0 l).toNat % sizeBytes fm0.size = 0
      ∧ openB sMem r.t .read (r.ea fm0 l).toNat = true ∧ openB sMem r.t .write (r.ea fm0 l).toNat = true
      ∧ openB sMem r.t .atomic (r.ea fm0 l).toNat = true)
    ∧ goes (exec (.ldg fm0) sMem) = true ∧ goes (exec (.stg fm0) sMem) = true ∧ goes (exec (.stnt fm0) sMem) = true
    ∧ goes (exec (.pref fm0) sMem) = true ∧ goes (exec (.atomg 9 fm0) sMem) = true ∧ goes (exec (.casg fm0) sMem) = true)
    (by decide +kernel)
  exact ⟨_, r, h, h0, h1, countable_of h2, h3, fun l hl => ⟨(h4 l hl).1, openPage_of (h4 l hl).2.1, openPage_of (h4 l hl).2.2.1,
    openPage_of (h4 l hl).2.2.2⟩, h5⟩

/-- A pool at 0x1_0000 whose first block is allocated, with rows of 32 elements of FP32. -/
def withPool (c : Ctx) : Ctx :=
  { c with
    pools := [(0, { base := 0x10000, nblk := 16, homes := 1, dm1 := 31, fmt := 0, bsc := 0, free := [] })]
    blocks := [(0x10000, ⟨1, 0, 1, 0, 31, true⟩)] }

/-- The bench with that pool; lanes 0 and 1 name the first and the last word of the window of 64 KiB. -/
def sWin : State := (bench [(7, 1, 0xFFFC)] [] 3).modCtx 1 withPool

/-- MemoryIssue, windows: the last word of the window of 64 KiB and of a window of the cluster (lds, sts, atoms, cass, ldx,
stx, atomx), the uniform load, and ldrot. -/
theorem witness_MemoryIssue_window :
    ∃ (s : State) (r : Run), s.running = some r ∧ r.act ≠ 0
      ∧ (∀ l ∈ lanesOf r.act, (r.ea fm0 l).toNat % 4 = 0 ∧ (r.ea fm0 l).toNat + 4 ≤ r.t.wsize ∧ (r.ea fm0 l).toNat < 2 ^ 27
        ∧ (r.ea fm0 l).toNat % 2 ^ 21 + 4 ≤ 1572864
        ∧ s.windowAt r.t.asid (r.t.core / 64 * 64 + (r.ea fm0 l).toNat / 2 ^ 21) ((r.ea fm0 l).toNat % 2 ^ 21) 4 = true
        ∧ s.accessCause r.t.asid r.t.mode .rot (0x10000 + (r.ea fm0 l).toNat % 128) = 0)
      ∧ (r.sx 4 + (0#20).signExtend 64).toNat % 4 = 0
      ∧ goes (exec (.lds fm0) s) = true ∧ goes (exec (.sts fm0) s) = true ∧ goes (exec (.ldx fm0) s) = true
      ∧ goes (exec (.stx fm0) s) = true ∧ goes (exec (.atoms 0 fm0) s) = true ∧ goes (exec (.cass fm0) s) = true
      ∧ goes (exec (.atomx 0 fm0) s) = true ∧ goes (exec (.atomxCas fm0) s) = true
      ∧ goes (exec (.ldgu ⟨8, 4, 0, 0, 0, 5, 0, 0, 1, 2⟩) s) = true ∧ goes (exec (.ldrot fm0) s) = true :=
  ⟨sWin, run_ok (by decide +kernel)⟩

/-- Lanes that store inside, misaligned and outside. -/
def sLanes : State := bench [(7, 0, 0xFFFC), (7, 1, 2), (7, 2, 0x10000)] [] 7

/-- LanesThatFault: lane 0 stores the last word of its window, lane 1 is misaligned, lane 2 passes the end. -/
theorem witness_LanesThatFault :
    ∃ (s : State) (r : Run), s.running = some r ∧ r.g.saved = 0 ∧ r.g.faulted &&& r.act = 0
      ∧ ((r.ea fm0 0).toNat % 4 = 0 ∧ (r.ea fm0 0).toNat + 4 ≤ r.t.wsize) ∧ (r.ea fm0 1).toNat % 4 ≠ 0
      ∧ r.t.wsize < (r.ea fm0 2).toNat + 4
      ∧ after (exec (.sts fm0) s) (fun t => (dget t.groups 2).any fun g => decide ((g.split 0).mask = 1 ∧ g.faulted = 6
          ∧ g.causes.map (fun c => (c.lane, c.cause, c.va)) = [(1, 9, 2), (2, 8, 0x10000)])) = true :=
  ⟨sLanes, run_ok (by decide +kernel)⟩

/-- The page stands in the slow tier. -/
def sAbsent : State := sMem.modCtx 1 fun c =>
  { c with pages := [(0, { benchPage with st := .remote, back := 1, zero := false, loc := .slow 0 0 })] }

/-- AbsentPagesPark: the page of both lanes is REMOTE, and its split parks at the instruction, for loads, stores and atomics. -/
theorem witness_AbsentPagesPark :
    ∃ (s : State) (r : Run), s.running = some r ∧ r.act ≠ 0 ∧ r.g.saved = 0 ∧ r.sp.doom = [] ∧ (s.core r.t.core).sieve = []
      ∧ (∀ l ∈ lanesOf r.act, (r.ea fm0 l).toNat % sizeBytes fm0.size = 0
        ∧ s.causeAt r.t.asid r.t.mode (r.ea fm0 l).toNat .read = 1)
      ∧ (∀ a ∈ [AccType.write, .atomic], ∀ l ∈ lanesOf r.act, s.causeAt r.t.asid r.t.mode (r.ea fm0 l).toNat a = 1)
      ∧ ∀ i ∈ [Instr.ldg fm0, .stg fm0, .atomg 0 fm0], after (exec i s) (fun t => (dget t.groups 2).any fun g =>
          decide ((g.split 0).st = .parked ∧ (g.split 0).mask = 3 ∧ (g.split 0).pages = [pageId 1 0] ∧ (g.split 0).nxt = r.sp.pos)) = true :=
  ⟨sAbsent, run_ok (by decide +kernel)⟩

/-- OrderingIssue: a non-temporal store of the group is in flight for drain to wait on; the L1 holds a line that cinv drops. -/
def sDrain : State :=
  { withOp (bench [] [(1, 0x1000), (2, 0x1000)] 1)
      { op0 with work := .mem ⟨.storeNt, .global, 8, 2, false, false, 0, 0, 0, [⟨0, 0, 0x1000, 4, [1, 2, 3, 4], [], .pending, none, none, false⟩]⟩ } with
    cores := [(0, { Core.reset with l1 := [⟨1, 0x1000, [], 0⟩, ⟨1, 0x2000, [], 0⟩] })] }

theorem witness_OrderingIssue :
    ∃ r, sDrain.running = some r ∧ (r.sx 1).toNat + (r.sx 2).toNat ≤ 2 ^ 64 ∧ r.sx 2 ≠ 0 ∧ countableB r 5 = true
      ∧ after (exec (.drain 5) sDrain) (fun t => decide ((dget t.flight 4).map Op.work = some (.drain [3]))) = true
      ∧ after (exec (.cinv 1 2 0 5) sDrain) (fun t => (t.core 0).l1.map L1Line.va == [0x2000]) = true
      ∧ after (exec (.cinv 0 0 1 5) sDrain) (fun t => (t.core 0).l1.isEmpty) = true
      ∧ after (exec (.seal ⟨9, 1, 2, 5⟩) sDrain) (fun t => decide ((dget t.flight 4).map Op.work = some (.seal false false 0x1000 0x1000)))
        = true ∧ goes (exec (.unseal ⟨9, 1, 2, 5⟩) sDrain) = true := run_ok (by decide +kernel)

/-- OrderingComplete: drain after its store; a region that is no whole number of pages, or empty; a page of 2 MiB sealed. -/
def sSeal (u : Bool) (base size : Nat) : State :=
  withOp bench0 { op0 with fam := if u then .unseal else .seal, work := .seal u false base size, sout := [(9, 0)], waits := [7] }

theorem witness_OrderingComplete :
    let o := { op0 with fam := .drain, work := .drain [7] }
    ((withOp bench0 o).performed 7 = true ∧ goes (exec (.drainComplete 3) (withOp bench0 o)) = true)
    ∧ (∀ e ∈ [(1, 4096), (0, 4097), (4096, 0)], ∀ u ∈ [false, true],
        outS (exec (if u then .unsealComplete 3 else .sealComplete 3) (sSeal u e.1 e.2)) 9 = some 1)
    ∧ (∃ t, dget (sSeal false 0 0x200000).teams 1 = some t ∧ (sSeal false 0 0x200000).sealStatus t false false 0 0x200000 = 0
      ∧ (sSeal false 0 0x200000).pagesIn t.asid 0 0x200000 ≠ []
      ∧ (∀ q ∈ (sSeal false 0 0x200000).pagesIn t.asid 0 0x200000, q.2.2.moving = false)
      ∧ (sSeal false 0 0x200000).versionHolds ((sSeal false 0 0x200000).pagesIn t.asid 0 0x200000) = false
      ∧ after (exec (.sealComplete 3) (sSeal false 0 0x200000))
          (fun t => (t.pageAt 1 0).any fun x => decide (x.2.2.st = .sealed)) = true) :=
  ⟨by decide +kernel, by decide +kernel, _, rfl, by decide +kernel⟩

/-- A memory instruction of one access of 4 bytes at 0x1FFFFC, the last of the page at 0. -/
def acc0 (data : List Byte) : Access := ⟨0, 0, 0x1FFFFC, 4, data, [], .pending, none, none, false⟩

/-- A memory instruction of one access. -/
def mw (k : AccKind) (sp : Space) (u : Access) : MemWork := ⟨k, sp, 8, 2, false, true, 0, 0, 0, [u]⟩

/-- The bench with such an instruction in flight and bytes at the address. -/
def sAcc (k : AccKind) (data : List Byte) : State :=
  withOp { bench0 with mem := bench0.mem.writeN 0x1FFFFC [5, 0, 0, 0] } { op0 with work := .mem (mw k .global (acc0 data)) }

/-- A byte of memory after a step. -/
def outM (o : Out) (a n : Nat) : Option (List Byte) :=
  match o with
  | .next t => some (t.mem.readN a n)
  | _ => none

/-- AccessAtSlice: stores, a load, atomics of the first and last sub-operation, a compare-and-swap that hits and one that
does not. -/
theorem witness_AccessAtSlice :
    ∀ e ∈ [(AccKind.store, [1, 2, 3, 4], [1, 2, 3, 4]), (.storeNt, [1, 2, 3, 4], [1, 2, 3, 4]), (.load, [], [5, 0, 0, 0]),
        (.atomic 0, [255, 0, 0, 0], [4, 1, 0, 0]), (.atomic 8, [9, 0, 0, 0], [9, 0, 0, 0]), (.atomic 9, [0, 0, 0, 0], [5, 0, 0, 0]),
        (.atomic 10, [5, 0, 0, 0, 6, 0, 0, 0], [6, 0, 0, 0]), (.atomic 10, [4, 0, 0, 0, 6, 0, 0, 0], [5, 0, 0, 0])],
      let s := sAcc e.1 e.2.1
      ∃ t, dget s.flight 3 = some { op0 with work := .mem (mw e.1 .global (acc0 e.2.1)) } ∧ dget s.teams 1 = some t
        ∧ t.versioned = false ∧ t.ver.sectors = [] ∧ s.mayPerform 3 op0 (mw e.1 .global (acc0 e.2.1)) 0 (acc0 e.2.1) = true
        ∧ s.pageAt t.asid 0x1FFFFC = some (1, 0, benchPage) ∧ (∀ k < 4, s.pageAt t.asid (0x1FFFFC + k) = some (1, 0, benchPage))
        ∧ s.causeAt t.asid .normal 0x1FFFFC e.1.acc = 0 ∧ outM (exec (.homeSliceAccess 3 0) s) 0x1FFFFC 4 = some e.2.2 :=
  fun e he => ⟨_, rfl, rfl, by revert e; decide +kernel⟩

/-- The team of the bench, VERSIONED, with a sector in its version. -/
def sVer : State :=
  (sAcc .store [1, 2, 3, 4]).modTeam 1 fun t =>
    { t with versioned := true, ver := { Version.fresh with sectors := [⟨1, 0x1FFFC0, []⟩], used := 64 } }

/-- StoreIntoVersion: the last word of a sector that the version holds. -/
theorem witness_StoreIntoVersion :
    ∃ t, dget sVer.flight 3 = some { op0 with work := .mem (mw .store .global (acc0 [1, 2, 3, 4])) } ∧ dget sVer.teams 1 = some t
      ∧ t.versioned = true ∧ t.ver.irrevocable = false
      ∧ sVer.mayPerform 3 op0 (mw .store .global (acc0 [1, 2, 3, 4])) 0 (acc0 [1, 2, 3, 4]) = true
      ∧ sVer.pageAt t.asid 0x1FFFFC = some (1, 0, benchPage) ∧ sVer.causeAt t.asid .version 0x1FFFFC .write = 0
      ∧ sVer.regionAt t.asid 0x1FFFFC = none ∧ sVer.spaceOf t.asid 0x1FFFFC = 1 ∧ t.ver.holds 1 0x1FFFFC = true
      ∧ 0x1FFFFC % 64 + 4 ≤ 64 ∧ outM (exec (.homeSliceAccess 3 0) sVer) 0x1FFFFC 4 = some [5, 0, 0, 0]
      ∧ after (exec (.homeSliceAccess 3 0) sVer) (fun s => (dget s.teams 1).any fun t => s.tbytes t 0x1FFFFC 4 == [1, 2, 3, 4])
        = true := ⟨_, rfl, rfl, by decide +kernel⟩

/-- LoadsComplete: lanes 0 and 31 loaded, lane 31 since faulted; a store. -/
def sLoaded (ret : Bool) : State :=
  withOp ((bench [] [] 1).modGroup 2 fun g => { g with faulted := 0x80000000 })
    { op0 with
      work := .mem { mw .load .global (acc0 []) with
        ret := ret
        units := [{ acc0 [] with st := .done, got := [1, 2, 3, 4] }, { acc0 [] with lane := 31, st := .done, got := [5, 6, 7, 8] }] } }

theorem witness_LoadsComplete :
    (∀ ret ∈ [false, true], ∃ o g t, dget (sLoaded ret).flight 3 = some o ∧ dget (sLoaded ret).groups o.group = some g
      ∧ dget (sLoaded ret).teams o.team = some t ∧ o.fam = .memory ∧ o.sout = [] ∧ o.vout = [])
    ∧ outV (exec (.memoryAccessComplete 3 0xFFFFFFFF) (sLoaded true)) 8 0 = some 0x04030201
    ∧ outV (exec (.memoryAccessComplete 3 0xFFFFFFFF) (sLoaded true)) 8 31 = some 0
    ∧ outV (exec (.memoryAccessComplete 3 0xFFFFFFFF) (sLoaded false)) 8 0 = some 0 :=
  ⟨fun _ _ => ⟨_, _, _, rfl, rfl, rfl, rfl, rfl, rfl⟩, by decide +kernel⟩

/-- AccessValues: unsigned and signed orders differ at the sign bit (R208). -/
theorem test_atomic_values :
    atomNew 1 4 0x80000000 1 0 = 0x80000000 ∧ atomNew 2 4 0x80000000 1 0 = 1 ∧ atomNew 3 8 (2 ^ 63) 1 0 = 1
    ∧ atomNew 0 4 0xFFFFFFFF 2 0 = 1 ∧ loadWords 5 [0x80] = [0xFFFFFF80] ∧ loadWords 6 [0x34, 0x92] = [0xFFFF9234]
    ∧ loadWords 4 (leBytes 16 0x0F0E0D0C0B0A09080706050403020100) = [0x03020100, 0x07060504, 0x0B0A0908, 0x0F0E0D0C]
    ∧ atomNew 9 4 0x3F800000 0x40000000 0 = 0x40400000 := by
  decide +kernel

/-- WindowAccesses: the last word of the window, stored and added to. -/
def sScr (k : AccKind) (ret : Bool) : State :=
  withOp { bench0 with mem := bench0.mem.writeN (scratchKey 0 0xFFFC) [255, 0, 0, 0] }
    { op0 with fam := if k == .store then .memory else .atomic
               work := .mem { mw k .window { acc0 [1, 2, 3, 4] with addr := 0xFFFC } with ret := ret } }

theorem witness_WindowAccesses :
    (∃ o g t, dget (sScr .store false).flight 3 = some o ∧ dget (sScr .store false).groups o.group = some g
      ∧ dget (sScr .store false).teams o.team = some t ∧ t.st = .running ∧ o.fam = .memory ∧ o.sout = [] ∧ o.vout = []
      ∧ t.wbase = 0 ∧ t.core = 0
      ∧ (sScr .store false).mayPerform 3 o (mw .store .window { acc0 [1, 2, 3, 4] with addr := 0xFFFC }) 0
          { acc0 [1, 2, 3, 4] with addr := 0xFFFC } = true)
    ∧ outM (exec (.memoryAccessComplete 3 0xFFFFFFFF) (sScr .store false)) (scratchKey 0 0xFFFC) 4 = some [1, 2, 3, 4]
    ∧ outM (exec (.atomicComplete 3 0xFFFFFFFF) (sScr (.atomic 0) true)) (scratchKey 0 0xFFFC) 4 = some [0, 3, 3, 4]
    ∧ outV (exec (.atomicComplete 3 0xFFFFFFFF) (sScr (.atomic 0) true)) 8 0 = some 255 :=
  ⟨⟨_, _, _, rfl, rfl, rfl, by decide +kernel⟩, by decide +kernel⟩

/-- A load of one lane that names a place of a scratchpad, or of one scalar, whose bytes are 255, 0, 0, 0. -/
def sLds (sp : Space) (uniform : Bool) (u : Access) : State :=
  withOp { bench0 with mem := bench0.mem.writeN (scratchKey 0 0xFFFC) [255, 0, 0, 0] }
    { op0 with work := .mem { mw .load sp u with uniform := uniform } }

/-- WindowAccesses: a load of the last word of the window, of its place in the cluster, and a scalar. -/
theorem witness_WindowAccesses_loads :
    (let u := { acc0 [] with addr := 0xFFFC }
     (∀ sp ∈ [Space.window, .remote], (sLds sp false u).mayPerform 3 { op0 with work := .mem (mw .load sp u) } (mw .load sp u) 0 u = true
       ∧ outV (exec (.memoryAccessComplete 3 0xFFFFFFFF) (sLds sp false u)) 8 0 = some 255)
     ∧ (sLds .remote false u).remoteCause 1 0 0xFFFC 4 = 0)
    ∧ outS (exec (.memoryAccessComplete 3 0xFFFFFFFF) (sLds .global true { acc0 [] with st := .done, got := [1, 2, 3, 4] })) 8
        = some 0x04030201 := by decide +kernel

/-! ### Loom -/

/-- The team of the loom example (15_looms.md): its descriptors in s4 to s6, the flags of the pass in v6, one bank reserved. -/
def sTile : State :=
  { (bench [(6, 0, 0x33), (6, 31, 0x33)] [(4, 0x00F87C0004000000), (5, 0x00F87C0004000400), (6, 0x10F87C0008000800), (7, 3 <<< 62)]
      0x80000001) with
    looms := [(0, { Loom.reset with banks := [(3, { Bank.reset with st := .reserved, team := 1 })] })] }

/-- The same team with acc0 bound to bank 0 and its three handles defined. -/
def sBound : State :=
  { sTile.modTeam 1 fun t =>
      { t with
        banks := [.bound 0, .unbound, .unbound, .unbound, .unbound, .unbound, .unbound, .unbound]
        handles := [(0, 0x00F87C0004000000), (1, 0x00F87C0004000400), (2, 0x10F87C0008000800)] } with
    looms := [(0, { Loom.reset with banks := [(0, { Bank.reset with st := .owned, team := 1 })] })] }

/-- A loom all of whose banks another team owns. -/
def sNoBank : State :=
  { sTile with
    looms := [(0, { Loom.reset with banks := (List.range 8).map fun k => (k, { Bank.reset with st := .owned, team := 9 }) })] }

/-- LoomInstructions: descriptors, acqb of a reserved bank, of a free one and of none, relb, mma and mdrn with their checks
passed. -/
theorem witness_LoomInstructions :
    (∃ r, sTile.running = some r ∧ tileOk (r.sx 4) = true ∧ tileOk (r.sx 6) = true ∧ tileOk (r.sx 7) = false
      ∧ r.t.bankOf 7 = none ∧ r.t.banks.length = 8 ∧ (sTile.loom 0).lowest (fun b => b.reservedFor r.tid) = some 3
      ∧ countableB r 5 = true ∧ after (exec (.acqb 7 10 5) sTile) (fun t => (dget t.teams 1).any fun t => t.bankOf 7 == some 3) = true
      ∧ after (exec (.thdef 7 7) sTile) (fun t => (dget t.teams 1).any fun t => t.traps.map TrapRecord.code == [2]) = true)
    ∧ (∃ r, bench0.running = some r ∧ r.t.banks.length = 8 ∧ (∀ n < 8, ((bench0.loom 0).bank n).team ≠ r.tid)
      ∧ (bench0.loom 0).lowest (fun b => b.st == .free) = some 0
      ∧ after (exec (.acqb 7 10 5) bench0) (fun t => (dget t.teams 1).any fun t => t.bankOf 7 == some 0) = true
      ∧ after (exec (.relb 0) bench0) (· == bench0) = true)
    ∧ (∃ r, sNoBank.running = some r ∧ r.t.bankOf 0 = none ∧ (∀ n < 8, ((sNoBank.loom 0).bank n).st = .owned)
      ∧ after (exec (.acqb 0 10 5) sNoBank) (fun t => decide ((dget t.flight 3).map Op.sout = some [(10, 2)])) = true)
    ∧ (∃ r, sBound.running = some r ∧ r.t.bankOf 0 = some 0 ∧ ((sBound.loom 0).bank 0).st = .owned
      ∧ (sBound.loom 0).queued r.tid < 8 ∧ (∀ l ∈ lanesOf r.act, r.g.vreg 6 l = 0x33) ∧ r.act ≠ 0 ∧ formatOk 0x33 = true
      ∧ mmaTiles r.t 0 1 0x33 = none ∧ mdrnTile r.t ⟨0, 2, 0, 2, 0, 0, 1, 0, 0, 1, 15⟩ = none ∧ 15 < sBound.nbarOf r.t
      ∧ mdrnTile r.t ⟨0, 2, 0, 2, 0, 0, 1, 224, 224, 0, 0⟩ = none
      ∧ after (exec (.mma 0 0 1 6 5) sBound) (fun t => (t.loom 0).queue.length == 1) = true
      ∧ after (exec (.mdrn ⟨0, 2, 0, 2, 0, 0, 1, 224, 224, 1, 15⟩) sBound) (fun t => (t.loom 0).queue.length == 1) = true
      ∧ goes (exec (.mzero 0 7) sBound) = true ∧ goes (exec (.mstat 10 0) sBound) = true
      ∧ after (exec (.relb 0) sBound) (fun t => decide (((t.loom 0).bank 0).st = .zeroing)) = true
      ∧ after (exec (.mzero 1 7) sBound) (fun t => (dget t.teams 1).any fun t => t.traps.map TrapRecord.code == [6]) = true) :=
  ⟨run_ok (by decide +kernel), run_ok (by decide +kernel), run_ok (by decide +kernel), run_ok (by decide +kernel)⟩

/-- FORMAT_DIVERGENCE: two lanes of vF differ. -/
theorem witness_LoomInstructions_divergence :
    ∃ r, (sBound.modGroup 2 fun g => g.setV 6 31 0x22).running = some r ∧ r.act.getLsbD 0 = true ∧ r.act.getLsbD 31 = true
      ∧ r.g.vreg 6 0 ≠ r.g.vreg 6 31 := run_ok (by decide +kernel)

/-- The loom of the bench team with one entry, at a stage. -/
def sEntry (w : LoomWork) (stage : Nat) (a b : List (List Nat)) : State :=
  { withOp sBound { op0 with fam := .loom, work := .loom } with
    looms := [(0, { Loom.reset with
      banks := [(0, { Bank.reset with st := .owned, team := 1, elems := [(0, 0x3F800000)] })]
      queue := [⟨3, 1, 0, 0, 0, some 1, false, w, stage, a, b, 0, []⟩] })] }

/-- An MMA of the example. -/
def mma0 : LoomWork := .mma 0x00F87C0004000000 0x00F87C0004000400 0x33

/-- A drain of one element in BF16. -/
def drain0 : LoomWork := .drain 0x1000000008000800 none 2 false 0 0 none

/-- LoomSteps: a pass that may start, one that ends, an mzero and a drain that end, and a bank that is zeroed. -/
theorem witness_LoomSteps :
    (∃ o g t, dget (sEntry mma0 0 [] []).flight 3 = some o ∧ dget (sEntry mma0 0 [] []).groups o.group = some g
      ∧ dget (sEntry mma0 0 [] []).teams 1 = some t ∧ o.team = 1 ∧ t.st = .running ∧ t.core / 4 = 0
      ∧ (sEntry mma0 0 [] []).windowSettled 3 = true ∧ (sEntry mma0 0 [] []).issueStopped 0 = false
      ∧ after (exec (.loomPassStart 0) (sEntry mma0 0 [] [])) (fun t => (t.loom 0).queue.map LoomEntry.stage == [2]) = true)
    ∧ after (exec (.loomPassEnd 0) (sEntry mma0 2 [] [])) (fun t => (t.loom 0).queue.isEmpty) = true
    ∧ after (exec (.mzeroDone 3) (sEntry .zero 2 [] [])) (fun t => ((t.loom 0).bank 0).elems.isEmpty) = true
    ∧ outM (exec (.mdrnDone 3) (sEntry drain0 2 [] [])) (scratchKey 0 0x800) 4 = some [0x80, 0x3F, 0, 0]
    ∧ (let s := { bench0 with looms := [(0, { Loom.reset with banks := [(7, { Bank.reset with st := .zeroing, elems := [(0, 1)] })] })] }
       ((s.loom 0).bank 7).st = .zeroing
        ∧ after (exec (.bankZeroingDone 0 7) s) (fun t => decide (((t.loom 0).bank 7).st = .free ∧ ((t.loom 0).bank 7).elems = []))
          = true) :=
  ⟨⟨_, _, _, rfl, rfl, rfl, rfl, by decide +kernel⟩, by decide +kernel, by decide +kernel⟩

/-- A pass of the example: 32 products of 1.0 and 2.0 add up to 64.0, exactly, and a NaN flags its row (R80, R81). -/
theorem test_pass :
    let a := [List.replicate 32 0x38, List.replicate 2 0 ++ [0x7F] ++ List.replicate 29 0]
    let bk := Bank.reset.pass false (a.map (loomRow 3)) ([List.replicate 32 0x40].map (loomRow 3))
    sget 0 bk.elems 0 = 0x42800000 ∧ sget 0 bk.elems 256 = 0x7FC00000 ∧ bk.nan = true := by decide +kernel

/-- ResiduesReconstruct: operands at both ends of the loom integers. -/
theorem witness_ResiduesReconstruct :
    let a := List.replicate 512 (-255 : Int)
    let b := List.replicate 512 (255 : Int)
    a.length ≤ 512 ∧ (∀ x ∈ a, -255 ≤ x ∧ x ≤ 255) ∧ (∀ x ∈ b, -255 ≤ x ∧ x ≤ 255) ∧ dotInt a b = -33292800 := by
  decide +kernel

/-! ### Porter -/

/-- A layout record of R292: 4 elements of E4M3 to BF16 in 1 + b rows, 256 B apart in memory and 128 B in the window. -/
def layout0 (b : Nat) : Nat := 0x3242 + 3 * 2 ^ 160 + b * 2 ^ 172 + 256 * 2 ^ 360 + 128 * 2 ^ 297

/-- A ring record of R300: 2 slots at 0x4000, 0x200 apart, barriers 1 and 2, the layout at 0x2000, a stride of 512. -/
def ring0 : Nat := 1 + 1 * 2 ^ 4 + 0x2000 * 2 ^ 161 + 0x4000 * 2 ^ 182 + 0x200 * 2 ^ 203 + 512 * 2 ^ 280

/-- The bench with records and an index list (row 0, then a skipped row) in its window: s4 the table, s5 the window offset, s6
the layout of two rows, s7 a clip to one row, s8 that of one row, s9 the list, s10 the ring. -/
def sPorter : State :=
  { ((bench [] [(4, 0x1000), (5, 0x1000), (6, 0x2000), (7, 0xFFFFFFFF00010040), (8, 0x2040), (9, 1 * 2 ^ 42 + 0x3000),
      (10, 0x2080)] 3).modGroup 2 fun g =>
      { g with batchL := 1, batches := [⟨1, [99], [], false, 0x800, 1, 0⟩] }).modTeam 1 fun t =>
      { t with barriers := [(1, { Barrier.unarmed with armed := true, texp := 1, tinit := 1, tarr := 1, bexp := 8 }),
                            (2, { Barrier.unarmed with armed := true, texp := 1, tinit := 1 })] } with
    mem := (((bench0.mem.writeN (scratchKey 0 0x2000) (leBytes 64 (layout0 1))).writeN (scratchKey 0 0x2040)
      (leBytes 64 (layout0 0))).writeN (scratchKey 0 0x2080) (leBytes 64 ring0)).writeN (scratchKey 0 0x3000)
      (leBytes 8 (0xFFFFFFFF * 2 ^ 32)) }

/-- PorterInstructions: the checks pass of a copy each way, of lists with and without pooling, and of a ring; a barrier just
below NBAR and one at it. -/
theorem witness_PorterInstructions :
    ∃ r, sPorter.running = some r ∧ countableB r 0 = true ∧ (sPorter.core r.t.core).porter.length < 64
      ∧ r.windowBusy sPorter = false ∧ 15 < sPorter.nbarOf r.t
      ∧ (let rcd := sPorter.winRecord r.t 0x2000
         checkPlaces r.t [(0x2000, 16, 64)] = none ∧ layoutOk rcd .pcpy 0x1000 = true ∧ layoutOk rcd .pput 0x1000 = true
         ∧ ∀ k ∈ [PorterKind.pcpy, .pput], checkWindow r.t (layoutOf rcd) k ((layoutOf rcd).extent 1) 0x1000 = none
             ∧ checkBase (layoutOf rcd) k 0x1000 = none)
      ∧ (let rcd := sPorter.winRecord r.t 0x2040
         checkPlaces r.t [(0x2040, 16, 64), (0x3000, 4, 8), (0, 4, 8)] = none ∧ layoutOk rcd .pgath 0x1000 = true
         ∧ layoutOk rcd .pscat 0x1000 = true ∧ listOk (layoutOf rcd) (r.sx 9) 2 2 true = true
         ∧ listOk (layoutOf rcd) (r.sx 9) 2 1 false = true
         ∧ checkWindow r.t (layoutOf rcd) .pgath 1 0x1000 = none ∧ checkBase (layoutOf rcd) .pgath 0x1000 = none
         ∧ checkWindow r.t (layoutOf rcd) .pscat 2 0x1000 = none ∧ checkBase (layoutOf rcd) .pscat 0x1000 = none)
      ∧ (let ring := sPorter.winRecord r.t 0x2080
         let lay := layoutOf (sPorter.winRecord r.t 0x2000)
         ring.toNat / 2 ^ 161 % 2 ^ 21 = 0x2000 ∧ checkPlaces r.t [(0x2080, 16, 64), (0x2000, 16, 64)] = none
         ∧ ringOk ring = true ∧ ringSlots ring = 2 ∧ ringBarrier ring = 1 ∧ checkBase lay .pcpy 0x1000 = none
         ∧ ∀ k ∈ List.range 2, layoutOk (sPorter.winRecord r.t 0x2000) .pcpy (ringSlot ring k) = true
           ∧ checkWindow r.t lay .pcpy (lay.extent 1) (ringSlot ring k) = none ∧ (r.t.barrier (1 + k)).armed = true)
      ∧ dget (sPorter.core 0).streams 0 = none ∧ r.g.batches.length < 255 ∧ r.g.covered 0 = true ∧ r.g.covered 1 = false
      ∧ (∀ i ∈ [Instr.pcpy ⟨4, 5, 6, 0⟩ 7 1 15, .pput ⟨4, 5, 6, 0⟩ 7 0 0, .pgath ⟨4, 5, 8, 0⟩ 9 1 1 1 1, .pscat ⟨4, 5, 8, 0⟩ 9 0 0,
          .pquant ⟨4, 5, 6, 0⟩ 2 0 0],
        after (exec i sPorter) (fun t => (t.core 0).porter.length == 1) = true)
      ∧ after (exec (.pstream ⟨11, 4, 10, 0⟩ 7) sPorter) (fun t => (dget (t.core 0).streams 0).isSome) = true
      ∧ goes (exec (.pstop 5 0) sPorter) = true ∧ outS (exec (.bwait 12) sPorter) 4 = some 0x1000
      ∧ after (exec (.bwait 11) sPorter) (· == sPorter) = true
      ∧ after (exec (.pcred 15 4) sPorter) (fun t => (dget t.groups 2).any fun g => g.batchOpen.isSome) = true := run_ok (by decide +kernel)

/-- The state after a step, or the one before it. -/
def next (o : Out) (d : State) : State :=
  match o with
  | .next t => t
  | _ => d

/-- PorterInstructions: all eight stream slots taken; a batch with four credits; a barrier at NBAR; a stream with a tile in
flight. -/
def sFull : State :=
  let a := next (exec (.pstream ⟨11, 4, 10, 0⟩ 7) sPorter) sPorter
  let st := (dget (a.core 0).streams 0).map fun st => { st with flying := some 77 }
  ({ a with cores := [(0, { Core.reset with streams := (List.range 8).filterMap fun k => st.map fun st => (k, st) })]
            kernels := a.kernels.map fun (e : Nat × Kernel) => (e.1, { e.2 with rcd := e.2.rcd - BitVec.ofNat 1024 (12 * 2 ^ 368) }) }).modGroup 2 fun g =>
    { g with batchOpen := some ⟨1, [], [(0, 1), (1, 1), (2, 1), (3, 1)], false, 0x800, 1, 0⟩ }

theorem witness_PorterInstructions_full :
    ∃ r, sFull.running = some r ∧ (∀ j < 8, dget (sFull.core r.t.core).streams j ≠ none) ∧ sFull.nbarOf r.t = 4
      ∧ 4 ≤ ((r.g.batchOpen.map Batch.credits).getD []).length
      ∧ after (exec (.pstream ⟨11, 4, 10, 0⟩ 7) sFull) (fun t => decide ((t.flight.map fun e => e.2.sout).getLast? = some [(11, BitVec.allOnes 64)])) = true
      ∧ after (exec (.pcred 3 4) sFull) (fun t => (dget t.teams 1).any fun t => t.traps.map TrapRecord.code == [2]) = true
      ∧ after (exec (.pcred 4 4) (sFull.modGroup 2 fun g => { g with batchOpen := none })) (fun t => (dget t.teams 1).any fun t => t.traps.map TrapRecord.detail == [66]) = true
      ∧ after (exec (.pstop 20 0) sFull) (fun t => decide ((t.flight.map fun e => e.2.waits).getLast? = some [77])) = true :=
  run_ok (by decide +kernel)

/-- PorterInstructions: 64 commands in the queue. -/
def sQueued : State :=
  { sPorter with cores := (next (exec (.pcpy ⟨4, 5, 6, 1⟩ 7 0 0) sPorter) sPorter).cores.map fun e =>
      (e.1, { e.2 with porter := (e.2.porter.take 1).flatMap fun c => List.replicate 64 c }) }

theorem witness_PorterInstructions_queue :
    sQueued.running.isSome = true ∧ (sQueued.core 0).porter.length = 64
    ∧ ∀ i ∈ [Instr.pcpy ⟨4, 5, 6, 1⟩ 7 0 0, .pstream ⟨11, 4, 10, 0⟩ 7, .pstop 20 0, .bseal 8 1, .bwait 4, .pcred 3 4],
        after (exec i sQueued) (fun t => t.cur.isNone && t.flight.isEmpty) = true := by decide +kernel

/-- The copy of sPorter in flight, its checks done, its accesses in a state. -/
def sCopy (checked : Bool) (st : UnitSt) : State :=
  let a := next (exec (.pcpy ⟨4, 5, 6, 1⟩ 7 0 0) sPorter) sPorter
  { a.modCore 0 fun c => { c with porter := c.porter.map fun p => { p with checked := checked } } with
    flight := a.flight.map fun e => (e.1, (List.range 4).foldl (fun o i => o.modUnit i fun u =>
      { u with st := st, got := List.replicate 64 0x38 }) e.2) }

/-- PorterSteps: checks that end, a command that completes (1.0 in row 0, padding in row 1), one of a HALTING team, one
that stops on a cause. -/
theorem witness_PorterSteps :
    (∀ st ∈ [UnitSt.pending, .done, .failed 4], ∀ b ∈ [false, true],
      ((dget (sCopy b st).flight 3).any fun o => o.fam == .porter && o.team == 1 && match o.work with
        | .mem m => m.units.length == 1 && m.units.all fun u => decide (u.st = st)
        | _ => false) = true
      ∧ ((dget (sCopy b st).teams 1).any fun t => decide (t.st = .running) && ((sCopy b st).porterOf t 3).any fun c =>
          c.1 == 0 && c.2.checked == b && c.2.moved.isEmpty) = true)
    ∧ after (exec (.porterChecksDone 3) (sCopy false .pending)) (fun t => (t.core 0).porter.all PorterCmd.checked) = true
    ∧ outM (exec (.porterCommandComplete 3) (sCopy true .done)) (scratchKey 0 0x1000) 2 = some [0x80, 0x3F]
    ∧ outM (exec (.porterCommandComplete 3) (sCopy true .done)) (scratchKey 0 0x1080) 2 = some [0, 0]
    ∧ after (exec (.porterStop 3) ((sCopy true .pending).modTeam 1 fun t => { t with st := .halting })) (fun t =>
        (dget t.flight 3).isNone) = true
    ∧ after (exec (.porterStop 3) (sCopy true (.failed 4))) (fun t => (dget t.groups 2).any fun g =>
        g.pendStops.map (fun x => x.2.cause) == [4]) = true := by decide +kernel

/-- PorterSteps, a read of the slow tier that has waited for its 64 bytes of the budget. -/
def sBudget : State :=
  { (sCopy true .held).modCtx 1 fun c =>
      { c with budget := 64000, pages := [(0, { benchPage with st := .remote, back := 1, zero := false, loc := .slow 0 0 })] } with
    ports := [(0, { Port.reset with st := .up })] }

theorem witness_PorterSteps_budget :
    ((dget sBudget.ctxs 1).any fun c => c.budgetNow sBudget.pk.gts == 64000) = true
    ∧ sBudget.accessCause 1 .normal .pread 0x1000 = 0
    ∧ after (exec (.remoteBudgetAccrued 3) sBudget) (fun t => (dget t.ctxs 1).any fun c => c.budget == 0) = true := by
  decide +kernel

/-- StreamTiles: the first slot awaits its bytes alone. -/
def sStream : State := { next (exec (.pstream ⟨11, 4, 10, 0⟩ 7) sPorter) sPorter with flight := [] }

theorem witness_StreamTiles :
    ((dget (sStream.core 0).streams 0).any fun st => (dget sStream.teams 1).any fun t =>
      let b := t.barrier (ringBarrier st.ring + 0)
      !b.spilled && (sStream.markedIn st.group 4).isEmpty && b.tarr == b.texp && b.phase == (st.phases.getD 0 0 + 0) % 2 ^ 32 && st.last.isNone && st.flying.isNone
        && t.st == .running && lfield st.ring 255 224 == 0) = true
    ∧ after (exec (.pstreamTileStart 0 0) sStream) (fun t => (t.core 0).porter.map PorterCmd.g == [0x1000]) = true := by
  decide +kernel

/-! ### Ordering, waiting, control -/

/-- The split's state in the bench group after a step. -/
def outSplit (o : Out) (i : Nat) : Option SplitSt :=
  match o with
  | .next t => (dget t.groups 2).map fun g => (g.split i).st
  | _ => none

/-- Scalars for waits: s4 the address 0x1F_FFF8, s5 = 5, s6 = 4, s7 = 1; counter 1 at 1; the GTS at 1; two groups on one
issue slot; a word of 5 at the address, the last of the page. -/
def sWait : State :=
  let s := (bench [] [(4, 0x1FFFF8), (5, 5), (6, 4), (7, 1)] 3).modGroup 2 fun g => { g with dc := [0, 1, 0, 0, 0, 0] }
  { s with
    groups := s.groups ++ (dget s.groups 2).toList.map fun g => (3, { g with grp := 2, slot := 1, run := none })
    nextId := 5, pk := { s.pk with gts := 1 }, mem := s.mem.writeN 0x1FFFF8 [5] }

/-- The same with a store of the group in flight. -/
def sFence : State :=
  { sWait with
    flight := [(4, { op0 with work := .mem (mw .store .global (acc0 [1, 2, 3, 4])) })]
    groups := sWait.groups.map fun e => (e.1, if e.1 = 2 then e.2.setSplit 0 { e.2.split 0 with past := [4] } else e.2) }

/-- WaitInstructions: each wait that is over, at its boundary, and one short of it. -/
theorem witness_WaitInstructions :
    ∃ r, sWait.running = some r ∧ sWait.fenceOps r.gid = [] ∧ r.g.cnt 1 = 1 ∧ openB sWait r.t .read (r.sx 4).toNat = true
      ∧ (r.sx 4).toNat % 8 = 0 ∧ r.t.versioned = false ∧ r.waitcBusy sWait (r.sx 4).toNat = false
      ∧ BitVec.ofNat 64 (leNat (sWait.tbytes r.t (r.sx 4).toNat 8)) = 5 ∧ sWait.pk.gts = 1
      ∧ after (exec (.fence 3 5) sWait) (fun t => (t.core 0).l1.isEmpty) = true
      ∧ outSplit (exec (.dwait 1 1) sWait) 0 = some .ready ∧ outSplit (exec (.dwait 1 0) sWait) 0 = some (.blocked (.dwait 1 0))
      ∧ outS (exec (.waitc 9 4 5) sWait) 9 = some 5
      ∧ outSplit (exec (.waitc 9 4 6) sWait) 0 = some (.blocked (.waitc 9 0x1FFFF8 4 none))
      ∧ outSplit (exec (.timewait 7 0) sWait) 0 = some .ready
      ∧ outSplit (exec (.timewait 7 1) sWait) 0 = some (.blocked (.timewait 2))
      ∧ (∀ i ∈ [Instr.yield, .sleep 0 1 0], outSplit (exec i sWait) 0 = some .ready
        ∧ after (exec i sWait) (fun t => (dget t.groups 2).any fun g => g.yieldTo == 2000) = true)
      ∧ outSplit (exec (.sleep 0 1 32767) sWait) 0 = some (.blocked (.sleep 32767000)) := run_ok (by decide +kernel)

theorem witness_WaitInstructions_token :
    ∃ r, sWait.running = some r ∧ (dget sWait.groups 3).any (fun x => x.team == r.tid && x.grp == 2 && decide (x.st = .live)) = true
      ∧ 2 % 2 = r.g.grp % 2 ∧ (∀ e ∈ sWait.groupsOf r.tid, e.2.grp = 2 → e.1 = 3)
      ∧ (sWait.core r.t.core).tok0 = none ∧ (sWait.core r.t.core).tok1 = none
      ∧ (∀ e ∈ sWait.groupsOf r.tid, e.2.grp = 63 → e.2.st ≠ .live)
      ∧ after (exec (.passpri 0 1 2) sWait) (fun t => (t.core 0).tok0 == some 3) = true
      ∧ after (exec (.passpri 0 1 63) sWait) (fun t => (t.core 0).tok0 == none) = true := run_ok (by decide +kernel)

theorem witness_WaitInstructions_fence :
    ∃ r, sFence.running = some r ∧ sFence.fenceOps r.gid = [4]
      ∧ outSplit (exec (.fence 2 4) sFence) 0 = some (.blocked (.fence 2 4 [4])) := run_ok (by decide +kernel)

/-- The bench group with its split blocked. -/
def sBlocked (b : Block) : State := sWait.modGroup 2 fun g => g.setSplit 0 { g.split 0 with st := .blocked b }

/-- WaitsEnd: each wait at its end and one before it. -/
theorem witness_WaitsEnd :
    ((dget (sBlocked (.timewait 1)).groups 2).any fun g => g.splits.length == 4 && decide (g.st = .live)) = true
    ∧ outSplit (exec (.timewaitExpiry 2 0) (sBlocked (.timewait 1))) 0 = some .ready
    ∧ outSplit (exec (.timewaitExpiry 2 0) (sBlocked (.timewait 2))) 0 = none
    ∧ outSplit (exec (.sleepExpiry 2 0) (sBlocked (.sleep 0))) 0 = some .ready
    ∧ outSplit (exec (.sleepExpiry 2 0) (sBlocked (.sleep 1))) 0 = none
    ∧ (sBlocked (.waitc 9 0x1FFFF8 5 none)).acquiring 2 = []
    ∧ ((dget (sBlocked (.waitc 9 0x1FFFF8 5 none)).teams 1).any fun t => openB sWait t .read 0x1FFFF8 && !t.versioned) = true
    ∧ ((dget (sBlocked (.waitc 9 0x1FFFF8 5 none)).groups 2).any fun g => (g.split 0).past.isEmpty) = true
    ∧ outS (exec (.waitcRecheck 2 0) (sBlocked (.waitc 9 0x1FFFF8 5 none))) 9 = some 5
    ∧ outS (exec (.waitcRecheck 2 0) (sBlocked (.waitc 9 0x1FFFF8 4 none))) 9 = none
    ∧ outS (exec (.waitcRecheck 2 0) (sBlocked (.waitc 9 0x1FFFF8 4 (some 3)))) 9 = some 3 := by decide +kernel

/-- PC of a split after a step. -/
def outPc (o : Out) (i : Nat) : Option (Nat × LaneMask) :=
  match o with
  | .next t => (dget t.groups 2).map fun g => ((g.split i).pc, (g.split i).mask)
  | _ => none

/-- BranchesEndsAndTraps: conditions on either side, and masks that take none, some and all of the lanes. The branch word of
the bench stands at 0x804. -/
theorem witness_Branches :
    let s := bench [] [(1, 0xFFFFFFFFFFFFFFFF), (2, 2), (3, 0x4000)] 3
    (∃ r, s.running = some r ∧ r.g.splits.length = 4 ∧ r.g.freeSlot = some 1 ∧ r.act = 3)
    ∧ outPc (exec (.bru 0 0 4) s) 0 = some (0x814, 3) ∧ outPc (exec (.bru 1 9 4) s) 0 = some (0x808, 3)
    ∧ outPc (exec (.bru 2 1 0xFFFF) s) 0 = some (0x800, 3) ∧ outPc (exec (.bru 3 1 4) s) 0 = some (0x808, 3)
    ∧ outPc (exec (.brd 9 4) s) 0 = some (0x808, 3) ∧ outPc (exec (.brd 1 4) s) 0 = some (0x814, 3)
    ∧ outPc (exec (.brd 2 4) s) 0 = some (0x808, 1) ∧ outPc (exec (.brd 2 4) s) 1 = some (0x814, 2)
    ∧ outPc (exec (.jmp 0xFFFF) s) 0 = some (0x800, 3) ∧ outPc (exec (.call 5 4) s) 0 = some (0x814, 3)
    ∧ outS (exec (.call 5 4) s) 5 = some 0x808 ∧ outPc (exec (.ret 3) s) 0 = some (0x4000, 3) :=
  ⟨run_ok (by decide +kernel), by decide +kernel⟩

/-- exit, trap, and brk without and with a debugger. -/
theorem witness_Ends :
    outSplit (exec .exit bench0) 0 = some .free
    ∧ after (exec (.trap 7) bench0) (fun t => (dget t.teams 1).any fun t => t.traps.map TrapRecord.code == [10]) = true
    ∧ ((dget bench0.ctxs 1).map Ctx.dbg) = some false
    ∧ after (exec (.brk 7) bench0) (fun t => (dget t.teams 1).any fun t => t.traps.map TrapRecord.code == [11]) = true
    ∧ after (exec (.brk 7) (bench0.modCtx 1 fun c => { c with dbg := true })) (fun t => (dget t.groups 2).any fun g => g.dbgHeld)
      = true := by decide +kernel

/-- The bench with one lane, whose v20 names a record in the last 128 bytes of its window, at a depth; a queue 3. -/
def sLaunch (rec depth : Nat) : State :=
  let s := bench [(20, 31, BitVec.ofNat 32 (3 * 2 ^ 21 + 0xFF80)), (21, 31, 0xFF80)] [] 0x80000000
  ({ s with mem := s.mem.writeN (scratchKey 0 0xFF80) (leBytes 128 rec) }.modKernel 0 fun k => { k with depth := depth }).modCtx 1
    fun c => { c with queues := [(3, ⟨0, 4, .active, false, [], 0⟩)] }

/-- LaunchAndEnqueue: a record at depths 8 and 9, and one that is not well formed. -/
theorem witness_LaunchAndEnqueue :
    recordOk (withDepth benchRecord 8) = true ∧ recordTop benchRecord = true ∧ recordOk (withDepth 0 8) = false ∧ recordOk 0 = false
    ∧ (∀ rec ∈ [benchRecord.toNat, 0], ∀ depth ∈ [7, 8],
      ((sLaunch rec depth).running.any fun r => lanesOf r.act == [31] && ((sLaunch rec depth).releasable r.gid).isEmpty
        && !r.t.versioned && r.g.marked == 0 && r.t.pend.isEmpty && !(sLaunch rec depth).cancelling r.t.asid
        && ((sLaunch rec depth).windowRecord r.t 0xFF80).toNat == rec && r.t.wsize == 0x10000) = true)
    ∧ outV (exec (.launch 22 21) (sLaunch benchRecord.toNat 7)) 22 31 = some 0
    ∧ after (exec (.launch 22 21) (sLaunch benchRecord.toNat 7)) (fun t => t.kernels.length == 2) = true
    ∧ outV (exec (.launch 22 21) (sLaunch 0 7)) 22 31 = some (BitVec.ofNat 32 codeBadLaunch)
    ∧ after (exec (.launch 22 21) (sLaunch 0 8)) (fun t => (dget t.teams 1).any fun t => t.traps.map TrapRecord.code == [7]) = true
    ∧ after (exec (.enq 22 20) (sLaunch benchRecord.toNat 8)) (fun t => ((dget t.ctxs 1).bind fun c => dget c.queues 3).any fun q =>
        (q.held 0).length == 1) = true
    ∧ outV (exec (.enq 22 20) (sLaunch 0 8)) 22 31 = some (BitVec.ofNat 32 codeBadLaunch)
    ∧ outSplit (exec (.launch 22 21) ((sLaunch 0 7).modTeam 1 fun t => { t with pend := [7, 8, 9, 10] })) 0
        = some (.blocked (.launch 22 (List.replicate 31 0 ++ [0xFF80]) 0x80000000)) := by decide +kernel

/-! ### Barriers -/

/-- PhaseComplete: the phases next to either end of the range. -/
theorem test_phase :
    phaseDone 1 0 = true ∧ phaseDone 0 0 = false ∧ phaseDone 0x7FFFFFFF 0 = true ∧ phaseDone 0x80000000 0 = false
    ∧ phaseDone 0 0xFFFFFFFF = true := by decide +kernel

/-- The bench of two threads with barrier 15, of 16, as given; s4 = 3 threads, s5 = 8 bytes, s6 = phase 2, s7 = phase 1. -/
def sBar (b : Barrier) : State :=
  (bench [] [(4, 3), (5, 8), (6, 2), (7, 1), (8, 5)] 3).modTeam 1 fun t => { t with barriers := [(15, b)] }

/-- Armed for 3 arrivals and 8 bytes in phase 2. -/
def bar0 : Barrier := { Barrier.unarmed with armed := true, texp := 3, tinit := 3, bexp := 8, pinit := 2, phase := 2 }

/-- A property of barrier 15 after a step. -/
def outB (o : Out) (p : Barrier → Bool) : Bool := after o fun t => (dget t.teams 1).any fun t => p (t.barrier 15)

/-- The codes and details of the traps after a step. -/
def outTraps (o : Out) : Option (List (Nat × Nat)) :=
  match o with
  | .next t => (dget t.teams 1).map fun t => t.traps.map fun x => (x.code, x.detail)
  | _ => none

/-- BarrierInstructions: each clause at its boundary: one arrival or byte short, the last one, a phase over and one open. -/
theorem witness_BarrierInstructions :
    (∃ r, (sBar bar0).running = some r ∧ (sBar bar0).nbarOf r.t = 16 ∧ (r.t.barrier 15).armed = true
      ∧ (lanesOf r.act).length = 2 ∧ (sBar bar0).releasable r.gid = [] ∧ countableB r 5 = true ∧ 3 ≤ (sBar bar0).ntidOf r.t)
    ∧ outB (exec (.binit 15 4 5 6) (sBar Barrier.unarmed)) (fun b => b.armed && b.texp == 3 && b.bexp == 8 && b.phase == 2) = true
    ∧ outB (exec (.binit 15 4 5 6) (sBar bar0)) (fun b => b == { bar0 with touched := b.touched }) = true
    ∧ outB (exec (.barv 15 0 7) (sBar bar0)) (fun b => b.tarr == 2 && b.phase == 2) = true
    ∧ outB (exec (.barv 15 9 5) (sBar { bar0 with tarr := 1, bcred := 8 })) (fun b => b.tarr == 0 && b.phase == 3) = true
    ∧ outB (exec (.bdrop 15) (sBar bar0)) (fun b => b.tarr == 2 && b.dropNow == 2) = true
    ∧ outB (exec (.bdrop 15) (sBar { bar0 with tarr := 1, bcred := 8 })) (fun b => b.texp == 1 && b.phase == 3) = true
    ∧ outB (exec (.barb 15 8) (sBar bar0)) (fun b => b.bcred == 5) = true
    ∧ outB (exec (.barb 15 5) (sBar { bar0 with tarr := 3 })) (fun b => b.phase == 3 && b.bcred == 0) = true
    ∧ outSplit (exec (.bwaitp 15 7) (sBar bar0)) 0 = some .ready
    ∧ outSplit (exec (.bwaitp 15 6) (sBar bar0)) 0 = some (.blocked (.bwaitp 15 2))
    ∧ (∀ i ∈ [Instr.barv 15 9 5, .barb 15 5, .bwaitp 15 6, .bdrop 15],
        outTraps (exec i (sBar Barrier.unarmed)) = some [(9, 241)])
    ∧ after (exec (.btest 15 9 7 0 5) (sBar bar0)) (fun t => (dget t.flight 4).any fun o => o.sout == [(9, 0x280000800)]) = true
    ∧ after (exec (.btest 15 9 7 1 5) (sBar bar0)) (fun t => (dget t.flight 4).any fun o => o.sout == [(9, 0)]) = true :=
  ⟨run_ok (by decide +kernel), by decide +kernel⟩

/-- A register at NBAR traps, whatever the instruction. -/
theorem witness_BarrierInstructions_nbar :
    ∀ i ∈ [Instr.binit 4 4 5 6, .barv 4 9 5, .barb 4 5, .bwaitp 4 6, .btest 4 9 7 0 5, .bdrop 4],
      outTraps (exec i sFull) = some [(9, 66)] := by decide +kernel

/-! ### Blocks, skeins, hoops and versions -/

/-- The context of the bench with the pool of withPool, and its group with scalars: s4 the block, s6 and s7 a pair. -/
def sBlk : State := (bench [] [(4, 0x10000), (6, 0x20001), (7, 9)] 1).modCtx 1 withPool

/-- The same in a VERSIONED team whose version may still take one item. -/
def sForm : State :=
  (sBlk.modTeam 1 fun t => { t with versioned := true, ver := { Version.fresh with used := 68 } }).modKernel 0 fun k =>
    { k with rcd := k.rcd ||| BitVec.ofNat 1024 (100 * 2 ^ 432) }

/-- ChandlerIssue: outside a version, and inside one with just room. -/
theorem witness_ChandlerIssue :
    (∃ r, sBlk.running = some r ∧ r.t.forming = false ∧ countableB r 5 = true ∧ goes (exec (.skswap ⟨8, 4, 6, 5⟩) sBlk) = true
      ∧ after (exec (.sklook ⟨8, 6, 5⟩) sBlk) (fun t => decide ((dget t.flight 3).map Op.work = some (.chandler 4 [0x20001, 9] false)))
        = true)
    ∧ ∃ r, sForm.running = some r ∧ r.t.forming = true ∧ r.t.ver.used + 32 = sForm.budgetOf r.t
      ∧ after (exec (.refdec ⟨8, 4, 5⟩) sForm) (fun t => (dget t.teams 1).any fun t => t.ver.helds.map (fun x => (x.op, x.args)) == [(10, [0x10000])]) = true :=
  ⟨run_ok (by decide +kernel), run_ok (by decide +kernel)⟩

/-- ChandlerCompletes: refinc of a block in flight; references of one, of two and at the end of their range. -/
def sChan : State := withOp sBlk { op0 with fam := .chandler, work := .chandler 9 [0x10000] false, sout := [(9, 0)] }

theorem witness_ChandlerCompletes :
    ((dget sChan.ctxs 1).any fun c => (c.block 0x10000).any fun d => d.ref == 1 && d.ref < 2 ^ 32 - 1) = true
    ∧ ((dget sChan.ctxs 1).any fun c => (c.block 0x10001).isNone) = true
    ∧ ((dget sChan.teams 1).any fun t => !t.versioned) = true
    ∧ outS (exec (.chandlerOpComplete 3) sChan) 9 = some 1
    ∧ (∀ n ∈ [2, 2 ^ 32 - 1], ((dget sChan.ctxs 1).any fun c =>
        let c := c.setDesc 0x10000 ⟨1, 0, n, 0, 31, true⟩
        (c.block 0x10000).any (fun d => d.ref == n) && (c.chandler (fun _ => true) 0 10 [0x10000]).2 == [BitVec.ofNat 64 n])
          = true) := by decide +kernel

/-- A sklook of position 2 of a skein of one block, in flight for a VERSIONED team or another; and a refinc of the former. -/
def sLook (versioned : Bool) (k : Nat) (args : List DWord) (ds : List Nat) : State :=
  let s := sBlk.modCtx 1 fun c => { c with skeins := [(5, ⟨false, 0, 2, 4, 1, 0, [(0, 0x10000)]⟩)] }
  withOp (s.modTeam 1 fun t => { t with versioned := versioned })
    { op0 with fam := .chandler, work := .chandler k args false, sout := ds.map fun d => (d, 0) }

theorem witness_ChandlerCompletes_pair :
    (∀ v ∈ [false, true],
      ((dget (sLook v 4 [5, 2] [10, 11]).teams 1).any fun t => t.forming == v && t.ver.helds.isEmpty) = true
      ∧ outS (exec (.chandlerOpComplete 3) (sLook v 4 [5, 2] [10, 11])) 10 = some 0x10000
      ∧ outS (exec (.chandlerOpComplete 3) (sLook v 4 [5, 2] [10, 11])) 11 = some 0x200000000
      ∧ outS (exec (.chandlerOpComplete 3) (sLook v 4 [5, 8] [10, 11])) 11 = some (statusWord 6 0))
    ∧ after (exec (.chandlerOpComplete 3) (sLook true 9 [0x10000] [9])) (fun t => (dget t.teams 1).any fun t =>
        t.ver.undo.map (fun x => x.op) == [10]) = true := by
  decide +kernel

/-- SkeinMap: a ring of 1 sink and a window of 2 with rows of 4, of 5 blocks, the oldest of which is lost: positions at the
ends of each range (R342). -/
theorem witness_SkeinMap :
    let k : Skein := ⟨true, 1, 2, 4, 5, 2, []⟩
    (k.map 3) = (0, 0, 3) ∧ (k.map 4).1 = 5 ∧ (k.map 11).1 = 5 ∧ k.map 12 = (0, 1, 0) ∧ k.map 19 = (0, 2, 3)
    ∧ (k.map 20).1 = 6 ∧ ((⟨true, 1, 2, 4, 0, 0, []⟩ : Skein).map 0).1 = 6 := by decide +kernel

/-- AppendedBlockIsFound: a linear skein with one entry left and a full one; a ring that wraps. -/
theorem witness_AppendedBlockIsFound :
    let k : Skein := ⟨false, 0, 2, 4, 1, 0, []⟩
    let f : Skein := ⟨false, 0, 2, 4, 2, 0, []⟩
    let r : Skein := ⟨true, 1, 2, 4, 3, 0, []⟩
    0 < k.win ∧ 0 < k.tpb ∧ k.old ≤ k.nb - k.ns ∧ (k.append 0x1000).isSome = true ∧ (f.append 0x1000).isNone = true
    ∧ f.nb - f.ns = f.win ∧ ((r.append 0x1000).map fun x => ((x.1.map 12), x.1.entry 1)) = some ((0, 1, 0), 0x1000) := by
  decide +kernel

/-- A region of granules of 64 bytes at 0x1000, under index 5, with a granule held or not. -/
def sHoop (held : Bool) : State :=
  let s := (bench [] [(4, 5), (5, 0x1FFF), (6, 0x2000), (7, 0x1000)] 1).modCtx 1 fun c => { c with regions := [(5, ⟨0x1000, 0x1000, 0⟩)] }
  { s with slices := if held then [(homeOf 1 0x1FC0, ⟨[⟨1, 0x1FC0, 1, false, false, [], false⟩], [], []⟩)] else [] }

/-- HoopInstructions: asdrop of a region that is free, that is busy, and of none; asqry at the region's last byte, at the byte
after it, of a granule free and held; vstat outside a version and in one. -/
theorem witness_HoopInstructions :
    (∃ r, (sHoop true).running = some r ∧ r.t.forming = false ∧ countableB r 5 = true
      ∧ (sHoop true).regionBusy r.t.asid ⟨0x1000, 0x1000, 0⟩ = true ∧ (sHoop false).regionBusy r.t.asid ⟨0x1000, 0x1000, 0⟩ = false
      ∧ (sHoop true).regionAt r.t.asid 0x1FFF = some (5, ⟨0x1000, 0x1000, 0⟩) ∧ (sHoop true).regionAt r.t.asid 0x2000 = none)
    ∧ after (exec (.asdrop ⟨8, 4, 5⟩) (sHoop false)) (fun t => (dget t.ctxs 1).any fun c => c.regions.isEmpty) = true
    ∧ after (exec (.asdrop ⟨8, 4, 5⟩) (sHoop true)) (fun t => (dget t.flight 3).any fun o => o.sout == [(8, 0x0500000000000000)]) = true
    ∧ after (exec (.asdrop ⟨8, 7, 5⟩) (sHoop false)) (fun t => (dget t.flight 3).any fun o => o.sout == [(8, 0x0600000000000000)]) = true
    ∧ after (exec (.asqry ⟨8, 5, 5⟩) (sHoop true)) (fun t => (dget t.flight 3).any fun o =>
        o.sout == [(8, 0x1FC0), (9, 0x80000000000005)]) = true
    ∧ after (exec (.asqry ⟨8, 6, 5⟩) (sHoop true)) (fun t => (dget t.flight 3).any fun o => o.sout == [(8, 0), (9, 0)]) = true
    ∧ goes (exec (.asdecl ⟨8, 4, 5, 5⟩) (sHoop true)) = true
    ∧ after (exec (.vstat 8 5) sForm) (fun t => (dget t.flight 3).any fun o => o.sout == [(8, 68)]) = true
    ∧ after (exec (.asdrop ⟨8, 4, 5⟩) sForm) (fun t => (dget t.flight 3).any fun o => o.sout == [(8, 0x0400000000000000)]) = true :=
  ⟨run_ok (by decide +kernel), by decide +kernel⟩

/-- RegionIsDeclared: beside the region above, one that overlaps it, and one whose size is no whole number of granules. -/
def sDecl (base size g : Nat) : State :=
  withOp (sHoop false) { op0 with fam := .asdecl, work := .asdecl false base size g, sout := [(9, 0)] }

theorem witness_RegionIsDeclared :
    ((dget (sDecl 0x2000 0x40 0).teams 1).any fun t => (dget (sDecl 0x2000 0x40 0).ctxs t.asid).any fun c =>
      c.asdeclStatus false 0x2000 0x40 0 == 0 && c.asdeclStatus false 0x2000 0x41 0 == 1 && c.asdeclStatus false 0x1FC0 0x40 0 == 2
      && c.asdeclStatus true 0x2000 0x40 0 == 4
      && !(sDecl 0x2000 0x40 0).versionIn t.asid 0x2000 0x40 && dget c.regions 0 == none) = true
    ∧ outS (exec (.asdeclDeclare 3) (sDecl 0x2000 0x40 0)) 9 = some 0
    ∧ outS (exec (.asdeclDeclare 3) (sDecl 0x2000 0x41 0)) 9 = some (0x0100000000000000)
    ∧ outS (exec (.asdeclDeclare 3) (sDecl 0x1FC0 0x40 0)) 9 = some 0x0200000000000000 := by decide +kernel

/-- The bench team in a state, with a version and hoops. -/
def sTeam (f : Team → Team) : State :=
  { bench0.modTeam 1 fun t => f { t with versioned := true } with
    slices := [(0, ⟨[⟨1, 0x1000, 1, false, true, [], false⟩], [], []⟩)] }

/-- A state of the bench team after a step. -/
def outT (o : Out) (p : Team → Bool) : Bool := after o fun t => (dget t.teams 1).any p

/-- VersionLife: a commit of one sector, wounds before and after the token, a discard, a restart, a release, and the free
token. -/
theorem witness_VersionLife :
    (let s := sTeam fun t =>
       { t with st := .committing, ver := { Version.fresh with st := .committing, sectors := [⟨1, 0x1FFFC0, [(0x1FFFFF, 7)]⟩] } }
     s.opsOf 1 = [] ∧ (s.slice 0).hoops.map Hoop.inOverflow = [false] ∧ (∀ e ∈ s.groupsOf 1, e.2.batches = [] ∧ e.2.asyncTraps = [] ∧ e.2.pendStops = [])
       ∧ ((dget s.ctxs 1).bind fun c => c.pageAt 0x1FFFC0) = some (0, benchPage)
       ∧ outM (exec (.commitPoint 1) s) 0x1FFFFF 1 = some [7])
    ∧ outT (exec (.woundArrival 1) (sTeam fun t => { t with wounds := [(0, 5)] })) (fun t => decide (t.st = .wounded)) = true
    ∧ outT (exec (.woundArrival 1) (sTeam fun t => { t with wounds := [(0, 5)], ver := { Version.fresh with irrevocable := true } }))
        (fun t => decide (t.st = .running ∧ t.wounds = [])) = true
    ∧ outT (exec (.versionDiscardDone 1) (sTeam fun t => { t with st := .wounded })) (fun t => decide (t.ver.st = .discarded)) = true
    ∧ (let s := sTeam fun t => { t with st := .wounded }
       (dget s.teams 1).map (s.restartSlots 1) = some [0])
    ∧ outT (exec (.teamRestart 1) (sTeam fun t =>
        { t with st := .wounded, restarts := 2 ^ 32 - 2, ver := { Version.fresh with st := .discarded } }))
        (fun t => decide (t.st = .running ∧ t.restarts = 2 ^ 32 - 1)) = true
    ∧ after (exec (.hoopReleaseArrival 0) (sTeam fun t => { t with releases := 1 })) (fun t => (t.slice 0).hoops.isEmpty) = true
    ∧ (let s := sTeam fun t => { t with st := .committing, ver := { Version.fresh with tokenWait := true } }
       s.pk.tokenHolder = none ∧ (s.askToken 1).pk.tokenHolder = some 1 ∧ (s.askToken 1).teams.length = 1 ∧ s.flight = []
         ∧ outT (exec .tokenGrant (s.askToken 1)) (fun t => t.ver.irrevocable && decide (t.st = .running)) = true) := by decide +kernel

/-! ### Groups and splits -/

/-- The bench group at a clause boundary before the clause at 0x800, whose header is given. -/
def sFetch (h : Word) : State :=
  { bench0.modGroup 2 fun g =>
      { g.setSplit 0 { g.split 0 with pc := 0x800, words := [], nxt := 0, pos := 0 } with run := none } with
    mem := bench0.mem.writeN 0x800 (bytesOfWord h) }

/-- ClauseFetch: a clause of one word that waits for nothing, one that waits for counter 0, a header of COUNT 0. -/
theorem witness_ClauseFetch :
    (∃ g t k, dget (sFetch 0x10000000).groups 2 = some g ∧ dget (sFetch 0x10000000).teams g.team = some t
      ∧ dget (sFetch 0x10000000).kernels t.kernel = some k ∧ g.run = none ∧ (sFetch 0x10000000).mayFetch g t = true
      ∧ g.pick.2 = some 0 ∧ (g.pick.1.split 0).atBoundary = true ∧ g.splits.length = 4
      ∧ (sFetch 0x10000000).fetchCause t [] 0x800 = 0 ∧ (sFetch 0x10000000).farSector k 0x800 8 = none
      ∧ (sFetch 0x10000000).fetchCause t [] 0x804 = 0
      ∧ g.fetching = false ∧ (∀ y ∈ sectorsOf 0x800 8, (sFetch 0x10000000).heldAt g.team t .fetch y 64 = none)
      ∧ hdrOk 0x10000000 = true ∧ hdrOk 0 = false ∧ k.granules g.role = 16
      ∧ walkClause ((sFetch 0x10000000).mapOf t.asid) (hdrClass 0x10000000) 16 16 1 [0x00018104] = none)
    ∧ outSplit (exec (.clauseFetch 2) (sFetch 0x10000000)) 0 = some .ready
    ∧ outPc (exec (.clauseFetch 2) (sFetch 0x10000000)) 0 = some (0x808, 0xFFFFFFFF)
    ∧ outSplit (exec (.clauseFetch 2) ((sFetch 0x10080000).modGroup 2 fun g => { g with dc := [1, 0, 0, 0, 0, 0] })) 0
        = some (.blocked (.header 1))
    ∧ outTraps (exec (.clauseFetch 2) (sFetch 0)) = some [(3, 0)] :=
  ⟨⟨_, _, _, rfl, rfl, rfl, by decide +kernel⟩, by decide +kernel⟩

/-- The bench group changed, with the island's cycle count at 2^20 cycles. -/
def sGroup (f : Group → Group) : State :=
  { bench0.modGroup 2 f with islands := [(0, { Island.reset with point := 2, setPoint := 2, cyc1000 := 1048576000 })] }

/-- A bin of the bench team with one thread. -/
def bin0 : Bin := ⟨1, 0, 0x900, [], 0, [(5, [(1, 7)])], 1048064000, none, []⟩

/-- GroupSteps: each step at the first cycle at which it may happen. -/
theorem witness_GroupSteps :
    (let s := sGroup fun g =>
       { (g.setSplit 0 { g.split 0 with words := [], nxt := 0 }) with
         faulted := 1, faultSince := some 0, causes := [⟨0, 4, 0x5000, 0x800, 1, 0x00018104, 9⟩] }
     ((dget s.groups 2).any fun g => s.faultsDue g && g.atBoundaries) = true
       ∧ outTraps (exec (.laneFaultTimeout 2) s) = some [(12, 4)])
    ∧ (let s := sGroup fun g =>
         { (g.setSplit 0 { g.split 0 with words := [], nxt := 0 }) with asyncTraps := [⟨9, 18, 0, 1, 0x800, 1, 0, 0, 0, 0⟩] }
       outTraps (exec (.asyncCreditTrap 2) s) = some [(9, 18)])
    ∧ (let s := sGroup fun g => g.setSplit 0 { g.split 0 with st := .blocked (.spilling 3 0x900) }
       outSplit (exec (.spill 2 0) s) 0 = some (.blocked .spillWrite)
       ∧ after (exec (.spill 2 0) s) (fun t => (t.core 0).bins.length == 1) = true)
    ∧ (let s := sGroup fun g =>
         (g.setSplit 0 { g.split 0 with st := .blocked (.spilling 3 0x900) }).setSplit 1
           { Split.empty with st := .ready, pc := 0xA00, mask := 4 }
       after (exec (.spill 2 0) s) (fun t => (t.core 0).bins.any fun e => e.2.closed.isNone) = true)
    ∧ (let s := sGroup fun g => g.setSplit 0 { g.split 0 with st := .blocked (.spillWait 3 0x900) }
       outSplit (exec (.spill 2 0) s) 0 = some .ready
       ∧ after (exec (.spill 2 0) s) (fun t => (dget t.groups 2).any fun g => (g.split 0).brd == 3) = true)
    ∧ outSplit (exec (.spillWriteDone 2 0) (sGroup fun g => g.setSplit 0 { g.split 0 with st := .blocked .spillWrite })) 0 = some .ready
    ∧ (let s := { sGroup id with cores := [(0, { Core.reset with bins := [(4, bin0)] })] }
       after (exec (.binCloseTimeout 0 4) s) (fun t => (dget (t.core 0).bins 4).any fun b => b.closed == some 1048576000) = true)
    ∧ (let s := { sGroup (fun g => { g with st := .ended }) with
         cores := [(0, { Core.reset with bins := [(4, { bin0 with closed := some 0 })] })] }
       s.fosterNumber 1 = some 32 ∧ s.keptSlot 1 = some 0 ∧ s.standingBy 0 (some 1) = false
         ∧ after (exec (.fosterGroupForm 0 4) s) (fun t => (dget t.groups 3).any fun g => g.grp == 32 && g.slot == 0 && g.vreg 1 0 == 7)
           = true)
    ∧ (let s := sGroup (fun g => { g with st := .stoodDown, slot := 9 })
       let s := { s with groups := s.groups ++ (dget s.groups 2).toList.map fun g => (3, { g with st := .ended, slot := 7, grp := 1 }) }
       s.keptSlot 1 = some 7 ∧ after (exec (.stoodDownReturn 2) s) (fun t => (dget t.groups 2).any fun g => g.slot == 7) = true)
    ∧ after (exec (.registerStoreFill 2 16) (sGroup fun g => { g with toLoad := [0, 16] })) (fun t =>
        (dget t.groups 2).any fun g => g.toLoad == [0]) = true
    ∧ (let s := { sGroup (fun g => { g with score := 7 }) with cores := [(0, { Core.reset with capAt1000 := 1047552000 })] }
       (s.core 0).capAt1000 + 1024000 = s.cyc1000 0
         ∧ after (exec (.memcapUpdate 0) s) (fun t => (dget t.groups 2).any fun g => g.score == 3) = true) := by decide +kernel

/-! ### Pages -/

/-- A fault record of a read of the page at 0 in lane 0. -/
def rcd0 (cause : Nat) : FaultRecord := ⟨0, 0, false, cause, 1, 9, 1, 1, 0, 0x1FFFFC⟩

/-- The bench core with one record in its sieve. -/
def sSieve (cause : Nat) (emitted : Bool) : State :=
  { bench0 with cores := [(0, { Core.reset with sieve := [⟨rcd0 cause, 2, emitted, emitted, 9, pageId 1 0⟩] })] }

/-- The same with a riddle entry for the page. -/
def sRiddle (forwarded : Bool) : State :=
  { sSieve 1 true with clusters := [(0, ⟨[⟨rcd0 1, pageId 1 0, [0], forwarded⟩], []⟩)] }

/-- A page of 4 KiB in the slow tier, at 0 in the bench context, in a state. -/
def sPage (st : PageSt) : State :=
  { bench0.modCtx 1 fun c =>
      { c with pages := [(0, { benchPage with sc := 0, st := st, back := 1, zero := false, loc := .slow 0 0, newFrame := 2 ^ 37, heat := 9 })] } with
    ports := [(0, { Port.reset with st := .up })] }

/-- The state of the page at 0 after a step. -/
def outPage (o : Out) : Option PageSt :=
  match o with
  | .next t => (t.pageAt 1 0).map fun x => x.2.2.st
  | _ => none

/-- PageFaultSteps: a record of a page not present and one of a fatal cause; a riddle without and with an entry; the MP; a
wake. -/
theorem witness_PageFaultSteps :
    after (exec (.sieveEmit 0) (sSieve 1 false)) (fun t => (t.core 0).sieve.map SieveRec.emitted == [true]) = true
    ∧ after (exec (.sieveEmit 0) (sSieve 4 false)) (fun t => (t.core 0).sieve.isEmpty && (dget t.ctxs 1).any fun c => c.faultLog.length == 1)
      = true
    ∧ after (exec (.riddleRecord 0) (sSieve 1 true)) (fun t => (t.cluster 0).riddle.map RiddleEntry.cores == [[0]]) = true
    ∧ after (exec (.riddleRecord 0) (sRiddle true)) (fun t => (t.cluster 0).riddle.map (fun e => e.rcd.mask) == [2]) = true
    ∧ after (exec (.riddleForward 0) (sRiddle false)) (fun t => t.mp.faults == [(pageId 1 0, rcd0 1)]) = true
    ∧ outPage (exec .mpFaultAccept { sPage .remote with mp := ⟨[(pageId 1 0, rcd0 1)], [], [], [], 0⟩ }) = some .faulting
    ∧ outSplit (exec (.coreWake 0 1 0) { (sPage .resident).modGroup 2 (fun g =>
        g.setSplit 0 { g.split 0 with st := .parked, pages := [pageId 1 0] }) with cores := [(0, { Core.reset with wakes := [(1, 0, 0)] })] }) 0
      = some .ready
    ∧ outSplit (exec (.coreWake 0 1 0) { ((sPage .resident).modTeam 1 fun t => { t with st := .halting }).modGroup 2 (fun g =>
        g.setSplit 0 { g.split 0 with st := .parked, pages := [pageId 1 0] }) with cores := [(0, { Core.reset with wakes := [(1, 0, 0)] })] }) 0
      = some .parked := by decide +kernel

/-- Which frame the MP takes is its choice, but where the only frame in use is of the same mask set and below the stack, it
takes the first it looks at. -/
theorem frame_found (i n b m : Nat) (used : List (Nat × Nat × Nat)) (base : Nat)
    (h : ∀ x ∈ used, x.2.2 = m ∧ x.1 + x.2.1 ≤ base) : ∃ f, searchFrame used base b m (n + 1) (n + 1) i = some f := by
  refine ⟨base + i % (n + 1) * b, ?_⟩
  have : frameFits used (base + i % (n + 1) * b) b m = true := by
    rw [frameFits, List.all_eq_true]
    intro x hx
    obtain ⟨h1, h2⟩ := h x hx
    obtain ⟨x1, x2, x3⟩ := x
    simp only at h1 h2
    simp [h1]
    omega
  simp [searchFrame, this]

/-- The page of sPage .faulting. -/
def page0 : Page :=
  { benchPage with sc := 0, st := .faulting, back := 1, zero := false, loc := .slow 0 0, newFrame := 2 ^ 37, heat := 9 }

/-- PageMoves: a page due, one whose copy ends, fails and times out, one that migrates, one that leaves, heat at its period,
and waiting commands. -/
theorem witness_PageMoves :
    (sPage .faulting).mem.wf ∧ ((dget (sPage .faulting).ctxs 1).bind fun c => dget c.pages 0) = some page0
      ∧ page0.mayPromote = true
    ∧ outPage (exec (.promotionDone 1 0) (sPage .promoting)) = some .resident
    ∧ outPage (exec (.promotionFail 1 0) (sPage .promoting)) = some .remote
    ∧ outPage (exec (.promotionTimeout 1 0) { sPage .promoting with pk := { bench0.pk with gts := 1000000 } }) = some .remote
    ∧ outPage (exec (.promotionTimeout 1 0) { sPage .promoting with pk := { bench0.pk with gts := 999999 } }) = none
    ∧ outPage (exec (.migrationDone 1 0) (sPage .migrating)) = some .resident
    ∧ outPage (exec (.evictionDone 1 0) (sPage .evicting)) = some .remote
    ∧ after (exec .heatDecay { sPage .resident with pk := { bench0.pk with gts := 1048576 } }) (fun t =>
        (t.pageAt 1 0).any fun x => x.2.2.heat == 4) = true
    ∧ outPage (exec (.promotionDone 1 0) { sPage .promoting with ports := [] }) = none := by
  decide +kernel

/-- PageMoves, a page that has been faulted and finds a frame. -/
theorem witness_PageMoves_promotion : ∃ f, (sPage .faulting).frameFor (sPage .faulting).frames (page0.ask 1 0) = some f := by
  have h : (sPage .faulting).frames = [] := by decide +kernel
  have hf : ¬(sPage .faulting).hbmFree [] < 0x1000 := by decide +kernel
  have hu : (sPage .faulting).unitFailed .stack (homeOf 1 0) = false := by decide +kernel
  have hn : Config.stackBytes / 0x1000 = 25165823 + 1 := by decide +kernel
  have ha : page0.ask 1 0 = ⟨0xFF, homeOf 1 0, 0x1000, 0, false⟩ := rfl
  obtain ⟨f, hfound⟩ : ∃ f, (sPage .faulting).frameOn [] (homeOf 1 0) 0x1000 0 = some f := by
    simp only [State.frameOn, hu, hn, if_false, Bool.false_eq_true]
    exact frame_found _ _ _ _ _ _ (by simp)
  refine ⟨f, ?_⟩
  rw [h, ha]
  have h24 : ¬(0xFF < 24) := by decide
  simp only [State.frameFor, State.findFrame, stackOrder, hf, hfound, h24, if_false, Bool.false_eq_true, List.cons_append,
    List.findSome?_cons]

/-- PageMoves, a migration to another stack. -/
theorem witness_PageMoves_migration :
    ∃ f, (sPage .resident).frameFor (sPage .resident).frames ⟨23, 0, 0x1000, 0, true⟩ = some f := by
  have h : (sPage .resident).frames = [(0, 0x1000, 0)] := by decide +kernel
  have hf : ¬(sPage .resident).hbmFree [(0, 0x1000, 0)] < 0x1000 := by decide +kernel
  have hu : (sPage .resident).unitFailed .stack 23 = false := by decide +kernel
  have hn : Config.stackBytes / 0x1000 = 25165823 + 1 := by decide +kernel
  simp only [State.frameFor, h, hf, State.frameOn, hu, hn, if_false, if_true, Bool.false_eq_true]
  exact frame_found _ _ _ _ _ _ (by simp)

/-- A page command that waits. -/
def sWaitCmd (cmd : PageCmd) (st : WaitStage) (p : PageSt) : State :=
  { sPage p with mp := ⟨[], [⟨3, 77, cmd, st⟩], [], [], 0⟩, nextId := 4 }

theorem witness_PageMoves_commands :
    (sWaitCmd (.evict 1 0 1) .evicting .remote).roomToPost = true
    ∧ ((dget (sWaitCmd (.evict 1 0 1) .evicting .remote).ctxs 1).any fun c => (c.walk 1 0).any fun l => l.map Prod.fst == [0]) = true
    ∧ after (exec (.pageCommandEffect 3) (sWaitCmd (.evict 1 0 1) .evicting .remote)) (fun t =>
        (dget t.pk.rspSlots 0).any fun r => r.tag == 77 && r.code == 0) = true
    ∧ ((sWaitCmd (.unmap 1 0 1) .versions .resident).pageAt 1 0).any (fun x =>
        !(sWaitCmd (.unmap 1 0 1) .versions .resident).pageVersioned 1 0 x.2.2) = true
    ∧ after (exec (.pageCommandEffect 3) (sWaitCmd (.unmap 1 0 1) .versions .resident)) (fun t =>
        (t.pageAt 1 0).isNone && (dget t.pk.rspSlots 0).any fun r => r.code == 0) = true := by decide +kernel

/-! ### Placement and ends -/

/-- A context with one queue, whose segment 0 holds a record. -/
def sQueue : State :=
  { bench0.modCtx 1 fun c => { c with queues := [(0, ⟨0, 4, .active, false, [(0, [0])], 0⟩)] } with
    teams := [], groups := [], cur := none, kernels := [(0, Kernel.enqueued 1 benchRecord 0 (.segment 1 0 0))] }

/-- The same after the search of distributor 0. -/
def sTaken : State := next (execDistributorSearch 0 sQueue) sQueue

theorem witness_PlacementSteps_search :
    (sQueue.dist 0).kernels = [] ∧ sQueue.searchOrder 0 = [(0, some (0, (1, 0, 1)))]
    ∧ ((dget sQueue.kernels 0).any fun k => decide (k.st = .enqueued) && k.edges.isNone && k.field 595 592 == 0
        && k.field 255 192 ≤ sQueue.pk.gts && decide (k.src = .segment 1 0 0)) = true
    ∧ after (exec (.distributorSearch 0) sQueue) (fun t => (t.dist 0).kernels == [0]) = true
    ∧ (sTaken.dist 0).placedAt ≠ some sTaken.pk.gts ∧ (sTaken.findResume 0).isNone = true
    ∧ (sTaken.findPlace 0).map (fun x => (x.1, x.2.2)) = some (0, 0, 1)
    ∧ after (exec (.distributorPlace 0) sTaken) (fun t => (dget t.teams 3).any (fun t => t.core == 0 && t.wsize == 0x10000)
        && (dget t.groups 4).any fun g => g.slot == 0) = true := by decide +kernel

/-- The bench team away from its core, with its window there. -/
def sAway : State :=
  { (bench0.modTeam 1 fun t => { t with st := .preempted, offCore := true }) with cur := none }

theorem witness_PlacementSteps_resume :
    (sAway.findResume 0).map (fun x => (x.1, x.2.2)) = some (1, 0)
    ∧ ((dget sAway.teams 1).any fun t => !t.restartDue) = true
    ∧ outT (exec (.distributorPlace 0) sAway) (fun t => decide (t.st = .running)) = true
    ∧ outT (exec (.windowCopyOutDone 1) (sAway.modTeam 1 fun t => { t with copyingOut := true })) (fun t => !t.windowIn) = true
    ∧ outT (exec (.windowCopyInDone 1) (bench0.modTeam 1 fun t => { t with copyingIn := true })) (fun t => !t.copyingIn) = true := by
  decide +kernel

/-- Sixteen teams away, each with sixteen barriers on core 0, and a kernel that asks for sixteen more. -/
def sBars : State :=
  let rec1 := benchRecord - BitVec.ofNat 1024 (16 * 2 ^ 376)
  let k := { Kernel.enqueued 1 rec1 0 (.segment 1 0 0) with st := .dispatching }
  { bench0 with
    groups := [], cur := none, kernels := [(0, k), (40, k)]
    teams := (List.range 16).filterMap fun i => (dget bench0.teams 1).map fun t =>
      (i + 1, { t with st := .swapped, offCore := true, wsize := 0, windowIn := false })
    dists := [(0, ⟨[], [40], none, none, none⟩)] }

theorem witness_PlacementSteps_barriers :
    (sBars.spillable 0).find? (fun x => x.1 == 16 && x.2.1 == 15) = some (16, 15, 0)
    ∧ (∀ x ∈ sBars.spillable 0, 0 ≤ x.2.2) ∧ sBars.failsFor 0 .barriers = true
    ∧ after (exec (.barrierSpill 16 15) sBars) (fun t => (dget t.teams 16).any fun t => (t.barrier 15).spilled) = true := by
  decide +kernel

/-- A team away that owns a bank, and a kernel that asks for all eight. -/
def sBanks : State :=
  let k := { Kernel.enqueued 1 (benchRecord + BitVec.ofNat 1024 (8 * 2 ^ 385)) 0 (.segment 1 0 0) with st := .dispatching }
  { sBound.modTeam 1 fun t => { t with st := .swapped, offCore := true } with
    cur := none, kernels := sBound.kernels ++ [(40, k)], dists := [(0, ⟨[], [40], none, none, none⟩)] }

theorem witness_PlacementSteps_banks :
    ((sBanks.loom 0).banks.map fun b => (b.1, b.2.team)) = [(0, 1)]
    ∧ (longestAway (sBanks.evictable 0)).map Prod.fst = some 1 ∧ sBanks.failsFor 3 .banks = true
    ∧ sBanks.arenaFits 1 (2 ^ 18) = true
    ∧ after (exec (.bankEvict 0 1) sBanks) (fun t => decide (((t.loom 0).bank 0).st = .zeroing)) = true := by decide +kernel

/-- A team asked to leave whose split stands at a boundary; one that has waited for SWAPTH cycles, 65,536 by default. -/
theorem witness_PlacementSteps_leave :
    (let s := (sFetch 0x10000000).modTeam 1 fun t => { t with stopReq := true }
     (∀ e ∈ s.groupsOf 1, e.2.mayLeave = true) ∧ s.inOrder 1 = true
       ∧ outT (exec (.preemptionComplete 1) s) (fun t => decide (t.st = .preempted ∧ t.stopReq = false)) = true)
    ∧ (let s := { (sBlocked (.waitc 9 0x1FFFF8 4 none)).modTeam 1 (fun t => { t with waitSince := some 0 }) with
         groups := (sBlocked (.waitc 9 0x1FFFF8 4 none)).groups.take 1
         islands := [(0, { Island.reset with point := 2, setPoint := 2, cyc1000 := 65537000 })] }
       ((dget s.teams 1).any fun t => s.waiting 1 t && s.inOrder 1 && nextCycle (0 + 1000 * s.swapth t) == s.cyc1000 t.core) = true
         ∧ outT (exec (.swapOut 1) s) (fun t => decide (t.st = .swapped)) = true) := by decide +kernel

/-- The bench team with its group at its end. -/
def sEnd : State := bench0.modGroup 2 fun g => { g with st := .ended, run := none }

/-- The bench kernel with a completion counter at 0x1F_FFF8, in a state; the counter holds 1. -/
def sKern (st : KernelSt) (trapped : Bool) : State :=
  { bench0.modKernel 0 fun k => { k with st := st, trapped := trapped, rcd := k.rcd ||| BitVec.ofNat 1024 (0x1FFFF8 * 2 ^ 128) } with
    teams := [], groups := [], cur := none, mem := bench0.mem.writeN 0x1FFFF8 [1] }

/-- EndsOfTeamsAndKernels: a retirement, a kernel complete and one faulted, a drained queue, a quiescent context with a page. -/
theorem witness_EndsOfTeamsAndKernels :
    ((dget sEnd.teams 1).any fun t => sEnd.mayRetire 1 t && t.windowIn && decide (t.st ≠ .halting)) = true
    ∧ after (exec (.teamRetire 1) sEnd) (fun t => t.groups.isEmpty) = true
    ∧ ((dget (sKern .draining false).kernels 0).any fun k => !k.stepped && k.field 191 128 == 0x1FFFF8
        && (sKern .draining false).causeAt k.asid .token 0x1FFFF8 .atomic == 0) = true
    ∧ outM (exec (.kernelComplete 0) (sKern .draining false)) 0x1FFFF8 8 = some [0, 0, 0, 0, 0, 0, 0, 0]
    ∧ outM (exec (.kernelFaulted 0) (sKern .running true)) 0x1FFFF8 8 = some [0, 0, 0, 0, 0, 0, 0, 0x80]
    ∧ (let s := (sKern .complete false).modCtx 1 fun c => { c with queues := [(63, ⟨0, 4, .draining, false, [(0, [])], 0⟩)] }
       (∀ e ∈ s.kernelsOf 1, e.2.isOver = true)
         ∧ after (exec (.queueDrainDone 1 63) s) (fun t => (dget t.ctxs 1).any fun c => c.queues.isEmpty) = true)
    ∧ (let s := { (sKern .complete false).modCtx 1 (fun c => { c with st := .draining }) with kernels := [] }
       ((dget s.ctxs 1).any fun c => s.quiescent 1 c) = true
         ∧ after (exec (.contextQuiescence 1) s) (fun t => t.ctxs.isEmpty && t.mem.isEmpty) = true)
    ∧ (let s := { (sKern .complete false).modCtx 1 (fun c =>
         { c with st := .draining, pages := c.pages.map fun e => (e.1, { e.2 with loc := .mirror 0 0 }) }) with kernels := [] }
       ((dget s.ctxs 1).any fun c => s.quiescent 1 c && c.pages.length == 1) = true
         ∧ after (exec (.contextQuiescence 1) s) (fun t => t.ctxs.isEmpty) = true) := by decide +kernel

/-- A HALTING team whose dump is due, in an armed context. -/
def sDump : State :=
  ((bench0.modTeam 1 fun t => { t with st := .halting, dumpDue := true }).modGroup 2 fun g =>
    { g.setSplit 0 { g.split 0 with words := [], nxt := 0 } with run := none }).modCtx 1 fun c =>
      { c with dumpVa := 0x100000, dumpSize := 0x100000, dumpKey := some 0 }

theorem witness_EndsOfTeamsAndKernels_dump :
    ((dget sDump.teams 1).any fun t => sDump.dumpReady 1 t && (dget sDump.kernels t.kernel).isSome
      && sDump.teams.all fun e => !(e.2.asid == t.asid && e.2.dumpDue) || t.trappedAt ≤ e.2.trappedAt) = true
    ∧ ((dget sDump.ctxs 1).any fun c => c.writing.isNone) = true := by decide +kernel

/-- A dump that is being written, of a trap or for a debugger. -/
def draft0 (tag : Option Nat) : DumpDraft := ⟨1, ⟨1, 1, 4096, 128⟩, List.replicate 64 0, List.replicate 128 0, false, tag⟩

theorem witness_EndsOfTeamsAndKernels_dumpEnd :
    ∀ g ∈ [none, some 77], ∀ s ∈ [sDump.modCtx 1 fun c => { c with writing := some (draft0 g) }],
      ((s.ctxs.filter fun e => (e.2.writing.any fun d => d.team == 1)).map Prod.fst) = [1] := by decide +kernel

/-! ### Commands -/

/-- A command of the mailbox answers a code and data in the first slot. -/
def answers (o : Out) (code : Nat) (data : List DWord) : Bool :=
  after o fun t => (dget t.pk.rspSlots 0).any fun r => decide (r.code = code ∧ r.data = data)

/-- The bench with its context in a state. -/
def sCtx (st : CtxSt) : State := { bench0.modCtx 1 fun c => { c with st := st } with teams := [], kernels := [], groups := [] }

/-- ContextAndQueueCommands: a context at either bound of its arena, whose number wraps; each change of state. -/
theorem witness_ContextCommands :
    bench0.pk.phase = .ready ∧ bench0.roomToPost = true
    ∧ answers (exec (.ctxCreate 64 (List.replicate 1312 0)) bench0) 0 [2] = true
    ∧ answers (exec (.ctxCreate 65536 (List.replicate 1312 0))
        { bench0 with pk := { bench0.pk with lastAsid := 65534 } }) 0 [65535] = true
    ∧ answers (exec (.ctxActivate 1) (sCtx .armed)) 0 [] = true ∧ answers (exec (.ctxActivate 1) (sCtx .active)) 1 [] = true
    ∧ after (exec (.ctxSuspend 1) bench0) (fun t => (dget t.teams 1).any Team.stopReq) = true
    ∧ answers (exec (.ctxResume 1) (sCtx .suspended)) 0 [] = true
    ∧ answers (exec (.ctxDrain 1 false) (sCtx .active)) 0 [] = true
    ∧ answers (exec (.ctxDrain 1 true) (sCtx .suspended)) 0 [] = true
    ∧ answers (exec (.ctxQuery 1) (sCtx .draining)) 0 [4, 0, 0, 0, 0] = true := by decide +kernel

/-- An arming record: map 0, a dump region of 1 MiB at 2 MiB. -/
def armRec : BitVec 1024 := BitVec.ofNat 1024 (0x200000 * 2 ^ 64 + 0x100000 * 2 ^ 128)

/-- Its payloads: a frequency table of one entry, and the hash masks that R270 allows least. -/
def armBytes : List Byte :=
  leBytes 8 0 ++ ((List.range 6) ++ (List.range 6)).flatMap fun i => leBytes 8 (2 ^ (7 + i))

/-- A context that is created and holds no page, in a machine with no frame in use. -/
def sCreated : State := { sCtx .created with ctxs := [(1, Ctx.created 64 [])] }

theorem witness_Arming :
    armRecordOk armRec = true ∧ ((dget sCreated.ctxs 1).any fun c => decide (c.st = .created) && c.pages.isEmpty) = true
    ∧ (match readArming (armRec.extractLsb' 0 4).toNat armBytes with
      | .ok a => a.pools.isEmpty && a.masks2 == a.masks3
      | .error _ => false) = true
    ∧ (armRec.extractLsb' 128 64).toNat ≤ sCreated.hbmFree sCreated.frames := by decide +kernel

/-- A context with queues 0 and 2; the segment of slice 0 of queue 2, of 16 records, is full. -/
def sQs (st : QueueSt) : State :=
  (sCtx .active).modCtx 1 fun c =>
    { c with arenaMiB := 65536, queues := [(0, ⟨0, 12, .active, false, [], 0⟩), (2, ⟨3, 4, st, false, [(sliceOf benchRecord, List.replicate 16 9)], 7⟩)] }

/-- ContextAndQueueCommands, queues: the lowest free one, of the least and the greatest size; a segment with room and one
that is full. -/
theorem witness_QueueCommands :
    answers (exec (.qCreate 1 3 12) (sQs .active)) 0 [1] = true ∧ answers (exec (.qCreate 1 0 4) (sCtx .active)) 0 [0] = true
    ∧ (sCtx .active).arenaFits 1 (2 ^ 15 * 2 ^ 4) = true
    ∧ answers (exec (.qActivate 1 2) (sQs .created)) 0 [] = true ∧ answers (exec (.qPause 1 2) (sQs .active)) 0 [] = true
    ∧ answers (exec (.qResume 1 2) (sQs .paused)) 0 [] = true ∧ answers (exec (.qDrain 1 2 false) (sQs .draining)) 0 [] = true
    ∧ answers (exec (.qDrain 1 2 true) (sQs .active)) 0 [] = true
    ∧ recordOk benchRecord = true ∧ recordTop benchRecord = true
    ∧ answers (exec (.qEnq 1 0 benchRecord) (sQs .active)) 0 [] = true
    ∧ answers (exec (.qEnq 1 2 benchRecord) (sQs .active)) 0x0B [] = true
    ∧ answers (exec (.qQuery 1 2) (sQs .paused)) 0 [2, 3, 4, 16, 7, 0] = true := by decide +kernel

/-- A context with a dump in slot 15. -/
def sDumped : State := (sCtx .active).modCtx 1 fun c => { c with dumps := [⟨15, 1, 4096, 128⟩] }

theorem witness_OwnerCommands :
    ((dget sDumped.ctxs 1).any fun c => c.dumps.map DumpEntry.slot == [15] && c.lastSeq == 0) = true
    ∧ sDumped.pk.phase = .ready ∧ sDumped.roomToPost = true := by decide +kernel

/-- A page at 0 of a context with no team, in a state. -/
def sPg (st : PageSt) : State := { sPage st with teams := [], kernels := [], groups := [] }

/-- PageCommands: a page mapped through a link at the next address; each command on the page at 0 in a state that permits
it. -/
theorem witness_PageCommands :
    ((dget (sPg .resident).ctxs 1).any fun c => (c.walk 1 0).any fun l => decide (l.map Prod.fst = [0])) = true
    ∧ attrOk 0xFF0000010007 = true
    ∧ locatorOk 0xFF0000010007 (.slow 0 15) = true
    ∧ ((dget (sPg .resident).ctxs 1).any fun c => !c.rangeTaken 0x1000 0x1000 && c.rangeTaken 0xFFF 1) = true
    ∧ answers (exec (.pgMap 1 0x1000 1 0xFF0000010007 (.slow 0 15)) (sPg .resident)) 0 [] = true
    ∧ answers (exec (.pgUnmap 1 0 1) (sPg .resident)) 0 [] = true
    ∧ answers (exec (.pgProtect 1 0 1 true false false) (sPg .sealed)) 0 [] = true
    ∧ outPage (exec (.pgEvict 1 0 1) (sPg .resident)) = some .evicting
    ∧ answers (exec (.pgQuery 1 0) (sPg .remote)) 0
        [BitVec.ofNat 64 (0xFF * 2 ^ 40 + homeOf 1 0 * 2 ^ 24 + 5 * 2 ^ 21 + 2 ^ 16 + 7)] = true := by decide +kernel

/-- The page at 0, remote. -/
def pageR : Page := { page0 with st := .remote }

theorem witness_PageCommands_promote :
    dget ((dget (sPg .remote).ctxs 1).map Ctx.pages).get! 0 = some pageR ∧ pageR.back = 1 ∧ pageR.pinned = false
    ∧ pageR.hostlock = false ∧ (sPg .remote).mp.waiting = []
    ∧ answers (exec (.pgPromote 1 0 1) ((sPg .remote).modPage 1 0 fun p => { p with hostlock := true })) 0 [] = true := by decide +kernel

/-- A context whose HBM is full: no frame, and nothing to evict. -/
theorem witness_PageCommands_full :
    let s := (sPg .remote).modCtx 1 fun c => { c with arenaMiB := 2 ^ 22 }
    s.evicting 1 = false ∧ (s.makeRoom 1 []).isNone = true ∧ (s.frameFor s.frames (pageR.ask 1 0)).isNone = true
    ∧ answers (exec (.pgPromote 1 0 1) s) 0x0F [] = true := by decide +kernel

/-- A page that PG_MAP gives a frame, for a context that holds none. -/
theorem witness_PageCommands_frame :
    attrOk 0xFF0000000047 = true ∧ locatorOk 0xFF0000000047 .none = true
    ∧ ∃ f, (sPg .remote).frameFor (sPg .remote).frames ((newPage 0x1000 0 0xFF0000000047 .none).2.ask 1 0x1000) = some f := by
  refine ⟨by decide, by decide, ?_⟩
  have h : (sPg .remote).frames = [] := by decide +kernel
  have hf : ¬(sPg .remote).hbmFree [] < 0x1000 := by decide +kernel
  have hu : (sPg .remote).unitFailed .stack (homeOf 1 0x1000) = false := by decide +kernel
  have hn : Config.stackBytes / 0x1000 = 25165823 + 1 := by decide +kernel
  have ha : (newPage 0x1000 0 0xFF0000000047 .none).2.ask 1 0x1000 = ⟨0xFF, homeOf 1 0x1000, 0x1000, 0, false⟩ := rfl
  obtain ⟨f, hfound⟩ : ∃ f, (sPg .remote).frameOn [] (homeOf 1 0x1000) 0x1000 0 = some f := by
    simp only [State.frameOn, hu, hn, if_false, Bool.false_eq_true]
    exact frame_found _ _ _ _ _ _ (by simp)
  refine ⟨f, ?_⟩
  rw [h, ha]
  have h24 : ¬(0xFF < 24) := by decide
  simp only [State.frameFor, State.findFrame, stackOrder, hf, hfound, h24, if_false, Bool.false_eq_true, List.cons_append,
    List.findSome?_cons]

/-- Where the only frame in use is another place of the same size and mask set, the MP takes the first place it looks at or
the next. -/
theorem frame_beside (i n b k m base : Nat) :
    ∃ f, searchFrame [(base + k * b, b, m)] base b m (n + 2) (n + 2) i = some f := by
  have fits (j : Nat) (h : j ≠ k) : frameFits [(base + k * b, b, m)] (base + j * b) b m = true := by
    simp only [frameFits, List.all_cons, List.all_nil, Bool.and_true]
    have : j * b + b ≤ k * b ∨ k * b + b ≤ j * b := by
      rcases Nat.lt_or_gt_of_ne h with h | h
      · exact .inl (by simpa [Nat.succ_mul] using Nat.mul_le_mul_right b h)
      · exact .inr (by simpa [Nat.succ_mul] using Nat.mul_le_mul_right b h)
    simp
    omega
  rw [searchFrame, searchFrame]
  by_cases h : i % (n + 2) = k
  · have h2 : (i + 1) % (n + 2) ≠ k := by
      rw [← h, Nat.add_mod]
      have := Nat.mod_lt i (show 0 < n + 2 by omega)
      by_cases he : i % (n + 2) + 1 = n + 2
      · simp [Nat.mod_eq_of_lt (show 1 < n + 2 by omega), he]
        omega
      · rw [Nat.mod_eq_of_lt (show 1 < n + 2 by omega), Nat.mod_eq_of_lt (show i % (n + 2) + 1 < n + 2 by omega)]
        omega
    have f2 := fits _ h2
    by_cases f1 : frameFits [(base + k * b, b, m)] (base + i % (n + 2) * b) b m = true
    · exact ⟨_, if_pos f1⟩
    · exact ⟨_, (if_neg f1).trans (if_pos f2)⟩
  · exact ⟨_, if_pos (fits _ h)⟩

/-- PG_SETHASH under the same mask set, of a page whose frame is the only one. -/
theorem witness_PageCommands_sethash :
    ∃ f, (sPg .resident).frameFor (sPg .resident).frames ⟨0, 0, 0x1000, 0, true⟩ = some f := by
  have h : (sPg .resident).frames = [(0 * 2 ^ 37 + 0 * 0x1000, 0x1000, 0)] := by decide +kernel
  have hf : ¬(sPg .resident).hbmFree [(0 * 2 ^ 37 + 0 * 0x1000, 0x1000, 0)] < 0x1000 := by decide +kernel
  have hu : (sPg .resident).unitFailed .stack 0 = false := by decide +kernel
  obtain ⟨n, hn⟩ : ∃ n, Config.stackBytes / 0x1000 = n + 2 := ⟨25165822, by decide +kernel⟩
  rw [h]
  simp only [State.frameFor, hf, State.frameOn, hu, hn, if_false, if_true, Bool.false_eq_true]
  exact frame_beside (Config.frameChoice (sPg .resident).freeCtr) n 0x1000 0 0 (0 * 2 ^ 37)

/-- PG_MIGRATE to the last stack. -/
theorem witness_PageCommands_migrate :
    ∃ f, (sPg .resident).frameFor (sPg .resident).frames ⟨23, 0, 0x1000, 0, true⟩ = some f := by
  have h : (sPg .resident).frames = [(0, 0x1000, 0)] := by decide +kernel
  have hf : ¬(sPg .resident).hbmFree [(0, 0x1000, 0)] < 0x1000 := by decide +kernel
  have hu : (sPg .resident).unitFailed .stack 23 = false := by decide +kernel
  have hn : Config.stackBytes / 0x1000 = 25165823 + 1 := by decide +kernel
  simp only [State.frameFor, h, hf, State.frameOn, hu, hn, if_false, if_true, Bool.false_eq_true]
  exact frame_found _ _ _ _ _ _ (by simp)

/-- A unified page in the slow tier that the host does not hold yet, and a second context without queues. -/
def sUni : State :=
  { (sPg .remote).modPage 1 0 fun p => { p with unified := true, loc := .slow 0x5000 3, locOff := 0x1000 } with
    ctxs := ((sPg .remote).modPage 1 0 fun p => { p with unified := true, loc := .slow 0x5000 3, locOff := 0x1000 }).ctxs
      ++ [(2, Ctx.created 64 [])] }

theorem witness_PageCommands_host :
    answers (exec (.urXlate 1 0 1 false false) sUni) 0 [1, 0x6000, 7] = true
    ∧ after (exec (.urXlate 1 0 1 true false) sUni) (fun t => (t.pageAt 1 0).any fun x => x.2.2.hostlock) = true
    ∧ answers (exec (.urReturn 1 0 1) sUni) 0 [] = true
    ∧ answers (exec (.shAttach 1 2 0x40000000 0x200000) sUni) 0 [] = true
    ∧ answers (exec (.pchQuery 1 23 true) (sUni.modCtx 1 fun c => { c with pch := [(64 * 23, 5)] })) 0
        (5 :: List.replicate 63 0) = true
    ∧ answers (exec (.poolDefine 1 (BitVec.ofNat 256 (3 + 0x200000 * 2 ^ 64 + 2 ^ 144 + 2 ^ 192))) sUni) 0 [] = true := by
  decide +kernel

/-- XFER commands up to the end of a sector of 64 bytes and of a page. -/
theorem witness_PageCommands_xfer :
    ((bench0.pageAt 1 0x1FFFC0).any fun x => !bench0.holds x.2.2 true 0x1FFFC0 64 && !bench0.holds x.2.2 false 0x1FFFC0 64) = true
    ∧ bench0.causeAt 1 .token 0x1FFFC0 .write = 0 ∧ bench0.causeAt 1 .token 0x1FFFC0 .read = 0 ∧ bench0.mp.xfers = []
    ∧ outM (exec (.xferIn 1 0x1FFFFE [7, 8]) bench0) 0x1FFFFC 4 = some [0, 0, 7, 8]
    ∧ outM (exec (.xferOut 1 0x800 4) bench0) (bar2Key 0) 4 = some (bench0.mem.readN 0x800 4)
    ∧ goes (exec (.xferOut 1 0x1FFFC0 64) bench0) = true := by decide +kernel

/-- The bench with its group held and at a clause boundary. -/
def sHeld : State := bench0.modGroup 2 fun g =>
  { g.setSplit 0 { g.split 0 with words := [], nxt := 0 } with dbgHeld := true, run := none }

/-- DebugCommands: each on the bench team; a write of the last register of the budget and of the last scalar. -/
theorem witness_DebugCommands :
    (sHeld.findTeam 1 0 0).map Prod.fst = some 1
    ∧ ((dget sHeld.groups 2).any fun g => (dget sHeld.teams 1).any fun t => g.quiesced t) = true
    ∧ answers (exec (.dbgAttach 1) sHeld) 0 [] = true
    ∧ after (exec (.dbgDetach 1) sHeld) (fun t => (dget t.groups 2).any fun g => !g.dbgHeld) = true
    ∧ (bench0.groups.all fun e => e.2.faulted == 0) = true
    ∧ after (exec (.dbgHold 1 0 0 1) bench0) (fun t => (dget t.groups 2).any fun g => g.dbgHeld) = true
    ∧ after (exec (.dbgRelease 1 0 0 1) sHeld) (fun t => (dget t.groups 2).any fun g => !g.dbgHeld) = true
    ∧ outV (exec (.dbgWrite 1 0 0 0 0 127 0x80000000 9) sHeld) 127 31 = some 9
    ∧ outS (exec (.dbgWrite 1 0 0 0 1 63 1 9) sHeld) 63 = some 9
    ∧ after (exec (.dbgWrite 1 0 0 0 2 0 1 3) sHeld) (fun t => (dget t.groups 2).any fun g => g.fmode == 1) = true := by
  decide +kernel

theorem witness_DebugCommands_snap :
    ((dget sHeld.kernels 0).any fun k => k.granules 0 == 16) = true
    ∧ (dget sHeld.ctxs 1).map Ctx.dumpSeq = some 0 ∧ (dget sHeld.ctxs 1).map Ctx.writing = some none := by decide +kernel

/-- A port in a state, with its lanes. -/
def sPort (st : PortSt) (n : Nat) : State :=
  { bench0 with ports := [(15, { Port.reset with st := st, lanes := n })], pk := { bench0.pk with gts := 100000000 } }

/-- The state of port 15 after a step. -/
def outPort (o : Out) : Option (PortSt × Nat) :=
  match o with
  | .next t => some ((t.port 15).st, (t.port 15).lanes)
  | _ => none

/-- An export window of the bench context over its first 2 MiB. -/
def win0 : ExportWin := ⟨1, 0, 0x200000, true, true, true, [], none⟩

/-- The bench with that window; a request on it waits at port 0. -/
def sWindow (busy : Bool) : State :=
  { bench0 with pk := { bench0.pk with windows := [(0, win0)] },
                ports := if busy then [(0, { Port.reset with st := .up, inb := [⟨9, 0, 0, .read, [], true⟩] })] else [] }

/-- LinkCommands: timeouts at their bounds; every state that permits a command; windows. -/
theorem witness_LinkCommands :
    (∀ n ∈ [0, 10, 100000], answers (exec (.lkConfig 15 n true) bench0) 0 [] = true)
    ∧ (∀ n ∈ [9, 100001], answers (exec (.lkConfig 15 n true) bench0) 0x17 [] = true)
    ∧ outPort (exec (.lkEnable 15) bench0) = some (.training, 0)
    ∧ outPort (exec (.lkDisable 15) (sPort .degraded 2)) = some (.draining, 2)
    ∧ outPort (exec (.lkReset 15) (sPort .failed 0)) = some (.down, 0)
    ∧ answers (exec (.lkQuery 15) (sPort .up 8)) 0 [3, 8, 1000, 0, 0, 0, 0, 0] = true
    ∧ answers (exec (.lkQuery 15) (sPort .failed 8)) 0 [6, 0, 1000, 0, 0, 0, 0, 0] = true
    ∧ after (exec (.trustAdd (List.replicate 32 7)) bench0) (fun t => t.pk.trust == [List.replicate 32 7]) = true
    ∧ answers (exec (.expCreate 1 0 (2 ^ 40) true false false []) bench0) 0 [0] = true
    ∧ answers (exec (.expCreate 1 0 (2 ^ 21) true false false []) (sWindow false)) 0 [1] = true
    ∧ answers (exec (.expDestroy 1 0) (sWindow false)) 0 [] = true
    ∧ after (exec (.expDestroy 1 0) (sWindow true)) (fun t => t.pk.rspSlots.isEmpty
        && (dget t.pk.windows 0).any fun w => w.closing.isSome) = true := by decide +kernel

/-- DeviceCommands: the bounds of an island, of a point and of the power limit. -/
theorem witness_DeviceCommands :
    answers (exec (.islandSet 127 4) bench0) 0 [] = true ∧ answers (exec (.islandSet 128 4) bench0) 0x1A [] = true
    ∧ answers (exec (.islandSet 127 5) bench0) 0x1A [] = true
    ∧ after (exec (.islandSet 0 2) bench0) (fun t => (t.island 0).change.isNone) = true
    ∧ after (exec (.pwrLimit 1000) bench0) (fun t => t.pk.limitW == 1000) = true
    ∧ after (exec (.pwrLimit 2800) bench0) (fun t => t.pk.limitW == 2800) = true
    ∧ answers (exec (.pwrLimit 2801) bench0) 0x1A [] = true ∧ answers (exec .sensorRead bench0) 0
        (List.replicate 160 0 ++ 2 :: List.replicate 127 0) = true
    ∧ goes (exec (.devAttest (List.replicate 32 1)) bench0) = true ∧ goes (exec .devInfo bench0) = true := by decide +kernel

/-! ### Host, power and links -/

/-- The bench with a held response; its response ring is full. -/
def sResp : State :=
  { bench0 with pk := { bench0.pk with held := [⟨5, 0, [], []⟩], rspProd := 32 } }

/-- The bench package some way on in time. -/
def sAt (f : Package → Package) : State := { bench0 with pk := f bench0.pk }

/-- An island in a state. -/
def sIsle (f : Island → Island) : State := { State.reset with islands := [(127, f Island.reset)] }

/-- HostAndPowerSteps: writes of BAR0 at the ends of each range, response slots, and bring-up. -/
theorem witness_HostSteps :
    bench0.pk.held = [] ∧ ringGap sResp.pk.rspProd 1 < 32
    ∧ after (exec (.rspConsWrite 1) sResp) (fun t => t.pk.held.isEmpty && t.pk.rspProd == 33
        && (dget t.pk.rspSlots 0).any fun r => r.tag == 5) = true
    ∧ after (exec (.registerWrite 8 7) bench0) (fun t => t.pk.reqProd == 7) = true
    ∧ after (exec (.registerWrite 0x20 7) bench0) (fun t => t.pk.rspCons == 7) = true
    ∧ (∀ o ∈ [0x8000, 0xFFFF, 0, 9, 0x7FFF, 0x10000, 0x1FFFF], goes (exec (.registerWrite o 7) bench0) = true)
    ∧ after (exec (.registerWrite 0x840C 7) (bench0.placeRequest 5 .devInfo)) (fun t =>
        (dget t.pk.reqSlots 1).any fun f => f.hdr == BitVec.ofNat 128 (7 * 2 ^ 96) && f.cmd.isNone) = true
    ∧ after (exec (.registerWrite 0x8000 7) (bench0.placeRequest 5 .devInfo)) (fun t =>
        (dget t.pk.reqSlots 0).any fun f => f.tag == 7 && f.code == 0x60 && decide (f.cmd = some .devInfo)) = true
    ∧ after (exec (.registerWrite 0x8010 7) (bench0.placeRequest 5 .devInfo)) (fun t =>
        (dget t.pk.reqSlots 0).any fun f => f.tag == 5 && f.cmd.isNone) = true
    ∧ outM (exec (.registerWrite 0x20000 7) bench0) (bar2Key 0) 4 = some [7, 0, 0, 0]
    ∧ outM (exec (.registerWrite 0x21FFFC 7) bench0) (bar2Key 0x1FFFFC) 4 = some [7, 0, 0, 0]
    ∧ goes (exec (.registerWrite 0x220000 7) bench0) = false
    ∧ after (exec .hbmTrainingDone (sAt fun p => { p with phase := .hbmTraining, gts := 5 })) (fun t =>
        t.pk.gts == 0 && (t.island 127).change == some 2) = true := by decide +kernel

/-- A sensor block of one junction that is not at 0 °C. -/
def heat (i n : Nat) : Sensors :=
  let js := (List.replicate 157 0).set i n
  { Sensors.reset with islandTemp := js.take 128, dieTemp := (js.drop 128).take 5, stackTemp := js.drop 133 }

/-- HostAndPowerSteps: an island that stops and one that goes on; samples about the bounds of a hold; the power limit; a
restored set point; failed units; an epoch. -/
theorem witness_PowerSteps :
    after (exec (.islandStop 127) (sIsle fun x => { x with change := some 1 })) (fun t => (t.island 127).stopped) = true
    ∧ (∀ n ∈ [1, 20000], after (exec (.islandResume 127) (sIsle fun x =>
        { x with setPoint := 1, change := some 1, stopped := true, stoppedNs := n })) (fun t =>
        (t.island 127).point == 1 && (t.island 127).change.isNone) = true)
    ∧ (∀ n ∈ [0, 20001], goes (exec (.islandResume 127) (sIsle fun x =>
        { x with setPoint := 1, change := some 1, stopped := true, stoppedNs := n })) = false)
    ∧ after (exec (.sensorSample (heat 0 921)) (sAt fun p => { p with gts := 1000000 })) (fun t =>
        t.pk.tripped == [0] && t.pk.msix == [0, 1, 0] && t.pk.sampledAt == 1000000) = true
    ∧ after (exec (.sensorSample (heat 0 920)) (sAt fun p => { p with gts := 1999999 })) (fun t =>
        t.pk.tripped == [] && t.pk.msix == [0, 0, 0] && t.pk.sampledAt == 1000000) = true
    ∧ after (exec (.sensorSample (heat 156 760)) (sAt fun p => { p with gts := 1000000, tripped := [156] }))
        (fun t => t.pk.tripped == [156] && t.pk.msix == [0, 0, 0]) = true
    ∧ after (exec (.sensorSample (heat 156 759)) (sAt fun p => { p with gts := 1000000, tripped := [156, 0] }))
        (fun t => t.pk.tripped == []) = true
    ∧ after (exec .powerLimitStep (sAt fun p => { p with gts := 10000000, sensors := ⟨[], [], [], 2800000, [9], 0, 0⟩ }))
        (fun t => (t.island 0).cap.isNone) = true
    ∧ after (exec .powerLimitStep (sAt fun p => { p with gts := 10000000, sensors := ⟨[], [], [], 2800001, [9], 0, 0⟩ }))
        (fun t => (t.island 0).cap == some 1 && (t.island 0).byPower) = true
    ∧ after (exec (.setPointRestore 127) { sIsle (fun x => { x with setPoint := 2, cap := some 1, clearedAt := some 5 }) with
        pk := { Package.reset with gts := 100000005 } }) (fun t => (t.island 127).cap.isNone) = true
    ∧ after (exec (.unitFailure .core 511) bench0) (fun t => t.pk.failed == [(.core, 511)] && t.pk.msix == [0, 1, 0]) = true
    ∧ (bench0.core 511).epoch ≠ epochOf (2 ^ 40)
    ∧ after (exec (.traceEpoch 511) (sAt fun p => { p with gts := 2 ^ 40 })) (fun t => (t.core 511).trace.length == 1) = true := by
  decide +kernel

/-- Every junction of the power steps' island is below 105 °C. -/
theorem witness_PowerSteps_cold : ∀ i < 128, bench0.pk.hot i = false := by decide +kernel

/-- An inbound or outbound request of a port that is UP. -/
def sLink (f : Port → Port) : State :=
  { sWindow false with ports := [(0, f { Port.reset with st := .up, lanes := 8, nextTag := 2 })] }

/-- A request of the bench for the access of operation 3. -/
def req0 : OutReq := ⟨1, 0, .read, 0, 0, [], .access 3 0⟩

/-- A load by a link from the last word of the bench page, in flight. -/
def sRemote : State :=
  { withOp ((sLink fun x => { x with out := [req0] }).modPage 1 0 fun p => { p with back := 2, st := .remote })
      { op0 with work := .mem ⟨.load, .global, 5, 2, false, true, 0, 0, 0, [⟨0, 0, 0x1FFFFC, 4, [], [], .pending, some 1, none, false⟩]⟩ } with
    pk := { (sWindow false).pk with gts := 1000000 } }

/-- The state of the access after a step. -/
def outUnit (o : Out) : Option UnitSt :=
  match o with
  | .next t => match (dget t.flight 3).map Op.work with
    | some (.mem m) => m.units.head?.map Access.st
    | _ => none
  | _ => none

/-- LinkSteps: training with 2 and 8 lanes, with one, too late; lanes; a drain; time. -/
theorem witness_LinkSteps :
    outPort (exec (.linkTrainingEnd 15 2 true) (sPort .training 0)) = some (.attesting, 2)
    ∧ outPort (exec (.linkTrainingEnd 15 8 true) (sPort .training 0)) = some (.attesting, 8)
    ∧ outPort (exec (.linkTrainingEnd 15 1 true) (sPort .training 0)) = some (.down, 0)
    ∧ outPort (exec (.linkTrainingEnd 15 8 true) { sPort .training 0 with pk := { bench0.pk with gts := 100000001 } }) = some (.down, 0)
    ∧ outPort (exec (.attestationTimeout 15) (sPort .attesting 8)) = some (.failed, 8)
    ∧ outPort (exec (.laneLoss 15) (sPort .up 8)) = some (.degraded, 7)
    ∧ outPort (exec (.laneLoss 15) (sPort .degraded 3)) = some (.degraded, 2)
    ∧ outPort (exec (.laneLoss 15) (sPort .degraded 2)) = some (.failed, 1)
    ∧ outPort (exec (.laneRetrain 15) (sPort .degraded 2)) = some (.up, 8)
    ∧ outPort (exec (.linkDrainDone 15) (sPort .draining 2)) = some (.down, 2)
    ∧ (sPort .attesting 8).pk.gts < ((sPort .attesting 8).port 15).since + 100000001 := by decide +kernel

/-- LinkSteps: a port that attests in time. -/
theorem witness_LinkSteps_attest :
    ((sPort .attesting 8).modPort 15 fun x => { x with since := 1 }).pk.gts < 1 + 100000000
    ∧ (((sPort .attesting 8).modPort 15 fun x => { x with since := 1 }).port 15).out = []
    ∧ (let s := sLink fun x => { x with peer := [7] }
       after (exec (.inboundRequest 0 9 0 0x1FFFFC [] .read [0, 0, 0, 0]) s) (fun t =>
         ((t.port 0).asks.map fun a => (a.peer, a.tags)) == [([], [9])] && (t.port 0).inb.map InReq.waiting == [true]) = true) := by
  decide +kernel

/-- LinkSteps: a peer behind a switch whose attestation is under way. -/
theorem witness_LinkSteps_behind (key : List Byte) :
    let x := { Port.reset with st := .up, asks := [⟨sha3 key, [], 1, []⟩] }
    x.st = .up ∧ x.asks.map PeerAsk.peer = [sha3 key] ∧ 0 < (1 : Nat) + 100000000 := by simp

/-- LinkSteps: requests of a peer, granted up to the end of a page and refused; answers, in time, refused, late; a timeout
at its first nanosecond; a cancel before and after its request; time of a leader and a follower. -/
theorem witness_LinkSteps_requests :
    after (exec (.inboundRequest 0 9 0 0x1FFFFC [] .read [0, 0, 0, 0]) (sLink id)) (fun t =>
        (t.port 0).outbox == [.answer 9 (.ok [0, 0, 0, 0])]) = true
    ∧ (sLink id).rangeCause 1 .normal 0x1FFFFC 4 .read = 0 ∧ (sLink id).heldPiece 1 false (piecesOf 0x1FFFFC 4) = none
    ∧ after (exec (.inboundRequest 0 9 0 0 [] .read []) { sLink id with pk := bench0.pk }) (fun t =>
        (t.port 0).outbox == [.answer 9 .refused]) = true
    ∧ after (exec (.remoteAnswer 0 1 .refused) (sLink id)) (fun t => (t.port 0).late == 1) = true
    ∧ outUnit (exec (.remoteAnswer 0 1 (.ok [1, 2, 3, 4, 5])) sRemote) = some .done
    ∧ outUnit (exec (.remoteAnswer 0 1 .refused) sRemote) = some (.failed 3)
    ∧ outUnit (exec (.remoteTimeoutExpiry 0 1) sRemote) = some (.failed 2)
    ∧ after (exec (.cancelArrival 0 9) (sLink id)) (fun t => (t.port 0).cancelled == [9]) = true
    ∧ after (exec (.cancelArrival 0 9) (sLink fun x => { x with performed := [(9, 1, 0, 2)] })) (fun t =>
        (dget t.ctxs 1).any fun c => c.faultLog.map (fun f => (f.cause, f.acc)) == [(2, 2)]) = true
    ∧ after (exec (.timeAlignSend 0) { sLink (fun x => { x with tmaster := true }) with
        pk := { bench0.pk with gts := 1048576 } }) (fun t => (t.port 0).outbox == [.time 1048576 0]) = true
    ∧ after (exec (.timeAlignMessage 0 7 2) (sLink fun x => { x with peerTmaster := true })) (fun t => t.pk.gts == 9) = true
    ∧ after (exec (.timeAlignMessage 0 7 2) { sLink (fun x => { x with peerTmaster := true }) with
        pk := { bench0.pk with gts := 10 } }) (fun t => t.pk.gts == 10 && t.pk.slowNs == 2) = true := by decide +kernel

/-! ### The machine as a whole -/

/-- DecodeOfEncode: a program instruction with operands at their largest values. -/
theorem witness_DecodeOfEncode :
    (Instr.vadd 1 ⟨126, 124, 62, 1⟩).isProgram = true ∧ (Instr.vadd 1 ⟨126, 124, 62, 1⟩).wf = true := by decide +kernel

/-- Words decode to an instruction and nothing is left, as a Bool. -/
def decodesTo (m : MapImage) (ws : List Word) (i : Instr) : Bool :=
  match decode m ws with
  | .ok (j, []) => decide (j = i)
  | _ => false

theorem decodesTo_ok {m : MapImage} {ws : List Word} {i : Instr} (h : decodesTo m ws i = true) : decode m ws = .ok (i, []) := by
  unfold decodesTo at h
  split at h
  · rename_i j hd
    rw [hd, of_decide_eq_true h]
  · exact absurd h (by decide)

/-- StepRunsTheInstruction: the bench, whose next word is a vadd. -/
theorem witness_StepRunsTheInstruction :
    ∃ (r : Run), bench0.running = some r ∧ bench0.agenda = [] ∧ bench0.issues r.tid r.t = true ∧ r.g.faultWait = false
      ∧ r.g.spills = false ∧ r.g.st = .live ∧ r.g.idleTo ≤ bench0.cyc1000 r.g.core ∧ bench0.outranked exec r.gid = false
      ∧ r.sp.atBoundary = false ∧ (bench0.island (islandOf r.g.core)).stopped = false ∧ r.g.toLoad = []
      ∧ r.slotOpen bench0 = true ∧ decode (bench0.mapOf r.t.asid) (r.sp.words.drop r.sp.nxt) = .ok (.vadd 0 ⟨3, 1, 2, 0⟩, [])
      ∧ goes (step bench0) = true := by
  obtain ⟨r, h, h1⟩ := run_ok (s := bench0) (P := fun r => bench0.agenda = [] ∧ bench0.issues r.tid r.t = true
    ∧ r.g.faultWait = false ∧ r.g.spills = false ∧ r.g.st = .live ∧ r.g.idleTo ≤ bench0.cyc1000 r.g.core
    ∧ bench0.outranked exec r.gid = false ∧ r.sp.atBoundary = false ∧ (bench0.island (islandOf r.g.core)).stopped = false
    ∧ r.g.toLoad = [] ∧ r.slotOpen bench0 = true ∧ decodesTo (bench0.mapOf r.t.asid) (r.sp.words.drop r.sp.nxt) (.vadd 0 ⟨3, 1, 2, 0⟩) = true
    ∧ goes (step bench0) = true)
    (by decide +kernel)
  obtain ⟨h1, h2, h3, h4, h5, h6, h7, h8, h9, h10, h0, h11, h12⟩ := h1
  exact ⟨r, h, h1, h2, h3, h4, h5, h6, h7, h8, h9, h10, h0, decodesTo_ok h11, h12⟩

/-- MemoryStaysCanonical: the bench and its next step. -/
theorem witness_MemoryStaysCanonical : Inv bench0 ∧ goes (step bench0) = true := by
  constructor
  · show bench0.mem.wf
    decide +kernel
  · decide +kernel
end Sys2Proof.Tests
end

section
/-!
The effective address of an FM instruction (R37): addition and scaling of 64-bit words are the integer operations modulo
2^64, so the model's word is the residue of the address computed over the integers.
-/
namespace Sys2Proof.Machine

/-- Scaling a word multiplies the integer it stands for. -/
theorem ofInt_shiftLeft_eq_ofInt_mul (w k : Nat) (z : Int) :
    BitVec.ofInt w z <<< k = BitVec.ofInt w (z * 2 ^ k) := by
  have hpow : BitVec.twoPow w k = BitVec.ofInt w (2 ^ k) := by
    apply BitVec.eq_of_toNat_eq
    rw [BitVec.toNat_twoPow, BitVec.toNat_ofInt]
    norm_cast
  rw [BitVec.shiftLeft_eq_mul_twoPow, hpow, BitVec.ofInt_mul]

/-- The model's test of the NX bit (R37). -/
theorem bit_toNat_beq_one_iff (b : Bit) : (b.toNat == 1) = true ↔ b = 1 := by
  revert b
  decide

/-- The exact integer whose residue modulo 2^64 is the effective address in lane l (R37). -/
def Run.eaInt (r : Run) (m : Fm) (l : Nat) : Int :=
  (r.g.sreg m.sbase.toNat).toNat
    + (if m.nx = 1 then 0 else (r.g.vreg m.vidx.toNat l).toInt * 2 ^ m.scale.toNat) + m.off.toInt

/-- Each summand of the model's address is the word of the corresponding summand of R37. -/
theorem Run.ea_eq_ofInt (r : Run) (m : Fm) (l : Nat) : r.ea m l = BitVec.ofInt 64 (r.eaInt m l) := by
  have hbase : BitVec.ofInt 64 ((r.g.sreg m.sbase.toNat).toNat : Int) = r.sx m.sbase := by
    rw [BitVec.ofInt_natCast, BitVec.ofNat_toNat, BitVec.setWidth_eq, Run.sx]
  simp only [Run.ea, Run.eaInt, bit_toNat_beq_one_iff, BitVec.ofInt_add, hbase]
  by_cases hnx : m.nx = 1
  · simp [hnx, BitVec.signExtend]
  · rw [if_neg hnx, if_neg hnx, BitVec.signExtend, BitVec.signExtend, ofInt_shiftLeft_eq_ofInt_mul]

/-- Settles O11: the address is the word of an integer, and a word's value is that integer's residue. -/
theorem effectiveAddress : Obligations.EffectiveAddress := by
  intro r m l
  rw [Run.ea_eq_ofInt, BitVec.toNat_ofInt]
  rfl

end Sys2Proof.Machine
end

section
/-!
The segment of a record (R104): the model folds the fields of AFFKEY as numbers, and the statement XORs them as bytes. The
heads a distributor searches are records held in segments of its own cluster (R113).
-/
namespace Sys2Proof.Machine

/-- A field of eight bits is a byte of the record (R106). -/
theorem rfield_add_seven (rcd : BitVec 1024) (lo : Nat) :
    rfield rcd (lo + 7) lo = (rcd.extractLsb' lo 8).toNat := by
  rw [rfield, Nat.add_sub_cancel_left]

/-- Folding the values of bytes by XOR gives the value of the bytes folded by XOR. -/
theorem foldl_xor_toNat {α : Type} {w : Nat} (b : α → BitVec w) (is : List α) (x : BitVec w) :
    is.foldl (fun n i => n ^^^ (b i).toNat) x.toNat = (is.foldl (fun y i => y ^^^ b i) x).toNat := by
  induction is generalizing x with
  | nil => rfl
  | cons i is ih => rw [List.foldl_cons, List.foldl_cons, ← BitVec.toNat_xor, ih]

/-- The segment of a record is a fold of the bytes of its affinity key, as bytes (R104). -/
theorem sliceOf_eq_toNat_foldl (rcd : BitVec 1024) :
    sliceOf rcd = ((List.range 8).foldl (fun y i => y ^^^ rcd.extractLsb' (464 + 8 * i) 8) 0).toNat := by
  simp only [sliceOf, rfield_add_seven]
  exact foldl_xor_toNat (fun i => rcd.extractLsb' (464 + 8 * i) 8) (List.range 8) 0

/-- A head of a cluster stands in a segment whose slice is of that cluster (R104, R113). -/
theorem State.cluster_of_mem_heads {s : State} {cluster prio : Nat} {e : Place × Nat}
    (he : e ∈ s.heads cluster prio) : e.1.2.2 / 32 = cluster := by
  obtain ⟨c, -, hc⟩ := List.mem_flatMap.mp he
  split at hc
  case isFalse => exact absurd hc List.not_mem_nil
  obtain ⟨q, -, hq⟩ := List.mem_flatMap.mp hc
  split at hq
  case isFalse => exact absurd hq List.not_mem_nil
  obtain ⟨g, -, hg⟩ := List.mem_filterMap.mp hq
  split at hg
  case h_2 => cases hg
  obtain ⟨hcl, hhead⟩ := Option.ite_none_right_eq_some.mp hg
  cases hhead
  exact beq_iff_eq.mp hcl

/-- Settles O32: the fold over the eight bytes, written out, and the cluster of a head. -/
theorem segmentOfRecord : Obligations.SegmentOfRecord := by
  constructor
  · intro rcd b
    rw [sliceOf_eq_toNat_foldl]
    simp [List.range_succ, b]
  · intro s cluster prio e he
    exact (State.cluster_of_mem_heads he).symm

end Sys2Proof.Machine
end

section
/-!
When a barrier phase reads as complete (R278): the model takes PHASE - q modulo 2^32 on natural numbers, which for the values
of two words is the value of their difference as words.
-/
namespace Sys2Proof.Machine

/-- The model's distance from a phase to PHASE is the value of the word PHASE - q. -/
theorem toNat_phase_sub (phase q : BitVec 32) :
    (phase.toNat + 2 ^ 32 - q.toNat % 2 ^ 32) % 2 ^ 32 = (phase - q).toNat := by
  rw [Nat.mod_eq_of_lt q.isLt, BitVec.toNat_sub, Nat.add_sub_assoc (Nat.le_of_lt q.isLt), Nat.add_comm]

/-- A phase reads as complete where the word PHASE - q is positive and has its sign bit clear. -/
theorem phaseDone_toNat_iff (phase q : BitVec 32) :
    phaseDone phase.toNat q.toNat = true ↔ 1 ≤ (phase - q).toNat ∧ (phase - q).toNat < 2 ^ 31 := by
  simp only [phaseDone, toNat_phase_sub, Bool.and_eq_true, decide_eq_true_eq]

/-- Settles O33: below 2^31 is at most 2^31 - 1. -/
theorem phaseComplete : Obligations.PhaseComplete := by
  intro phase q
  rw [phaseDone_toNat_iff, Nat.le_sub_one_iff_lt (by decide)]

end Sys2Proof.Machine
end

section
/-!
Where a position of a skein is mapped (R342): an equation of `Skein.map` for each way through map(p). The sink's positions are
the first NS * TPB; the window index w of a later position is (p - NS * TPB) / TPB.
-/
namespace Sys2Proof.Machine

/-- A sink position whose block is not yet appended is BEYOND. -/
theorem Skein.map_sink_beyond {k : Skein} {p : Nat} (hp : p < k.ns * k.tpb) (hnb : k.nb ≤ p / k.tpb) :
    k.map p = (6, 0, 0) := by
  rw [Skein.map, if_pos hp, if_pos hnb]

/-- A sink position whose block is appended is in the entry of that block's own index. -/
theorem Skein.map_sink {k : Skein} {p : Nat} (hp : p < k.ns * k.tpb) (hnb : p / k.tpb < k.nb) :
    k.map p = (0, p / k.tpb, p % k.tpb) := by
  rw [Skein.map, if_pos hp, if_neg (Nat.not_le.mpr hnb)]

/-- A window position whose block is not yet appended is BEYOND. -/
theorem Skein.map_window_beyond {k : Skein} {p : Nat} (hp : k.ns * k.tpb ≤ p)
    (hnw : k.nw ≤ (p - k.ns * k.tpb) / k.tpb) : k.map p = (6, 0, 0) := by
  rw [Skein.map, if_neg (Nat.not_lt.mpr hp)]
  exact if_pos hnw

/-- A window position below OLD is STALE. -/
theorem Skein.map_window_stale {k : Skein} {p : Nat} (hp : k.ns * k.tpb ≤ p)
    (hnw : (p - k.ns * k.tpb) / k.tpb < k.nw) (hold : (p - k.ns * k.tpb) / k.tpb < k.old) : k.map p = (5, 0, 0) := by
  rw [Skein.map, if_neg (Nat.not_lt.mpr hp)]
  exact (if_neg (Nat.not_le.mpr hnw)).trans (if_pos hold)

/-- A window position from OLD on is in the slot of its window index. -/
theorem Skein.map_window {k : Skein} {p : Nat} (hp : k.ns * k.tpb ≤ p)
    (hnw : (p - k.ns * k.tpb) / k.tpb < k.nw) (hold : k.old ≤ (p - k.ns * k.tpb) / k.tpb) :
    k.map p = (0, k.slot ((p - k.ns * k.tpb) / k.tpb), (p - k.ns * k.tpb) % k.tpb) := by
  rw [Skein.map, if_neg (Nat.not_lt.mpr hp)]
  exact (if_neg (Nat.not_le.mpr hnw)).trans (if_neg (Nat.not_lt.mpr hold))

/-- Settles O37: the equation of each way through map(p), with the window's length and slots written out. -/
theorem skeinMap : Obligations.SkeinMap := by
  intro k p
  refine ⟨?sinkBeyond, Skein.map_sink, ?windowBeyond, ?windowStale, Skein.map_window⟩
  case sinkBeyond =>
    intro hp hnb
    rw [Skein.map_sink_beyond hp hnb]
  case windowBeyond =>
    intro hp hnw
    rw [Skein.map_window_beyond hp hnw]
  case windowStale =>
    intro hp hnw hold
    rw [Skein.map_window_stale hp hnw hold]

end Sys2Proof.Machine
end
